-- ==== Sys2Proof/Word.lean ====
section
/-! DEFINITION. The words of the machine: the widths the spec gives its cells and instruction fields (00_scope.md R6, R8; 30_encoding.md R71). -/

namespace Sys2Proof

/-- A memory cell, a general register or a timer: 8 bits (10_state.md R20). -/
abbrev Byte := BitVec 8

/-- I, PC, a return address, an instruction word or a fault field: 16 bits (10_state.md R20). -/
abbrev Word := BitVec 16

/-- The register index fields x and y: 4 bits, selecting V[0] to V[15] (30_encoding.md R71, R74). -/
abbrev RegIdx := BitVec 4

/-- The 12-bit address field nnn (30_encoding.md R71). -/
abbrev Addr12 := BitVec 12

/-- The 4-bit count field n, the row count of a sprite (30_encoding.md R71, R73). -/
abbrev Count := BitVec 4

/-- Register index 0xF, the flag register VF (10_state.md R21). -/
abbrev VF : RegIdx := 0xF#4

end Sys2Proof
end

