-- ==== Sys2Proof/Config.lean ====
section
/-! DEFINITION. What an implementation fixes and what the spec leaves free: the parameters of 00_scope.md R6 and R7. -/

namespace Sys2Proof.Config

/-- MEM_SIZE: addresses 0x000 to 0xFFF (00_scope.md R6, 20_memory.md R50). -/
abbrev memSize : Nat := 4096

/-- STACK_DEPTH: 16 return addresses (00_scope.md R6). -/
abbrev stackDepth : Nat := 16

/-- DISPLAY_W: 64 columns (00_scope.md R6). -/
abbrev displayW : Nat := 64

/-- DISPLAY_H: 32 rows (00_scope.md R6). -/
abbrev displayH : Nat := 32

/-- FONT_BASE: the address of the font table (00_scope.md R6). -/
abbrev fontBase : Nat := 0x50

/-- FONT_SIZE: 16 glyphs of 5 bytes (00_scope.md R6). -/
abbrev fontSize : Nat := 80

/-- ENTRY: PC after the Initializer, and the address a ROM is copied to (00_scope.md R6). -/
abbrev entry : Nat := 0x200

/-- ROM_MAX: MEM_SIZE - 0x200 bytes (00_scope.md R6). -/
abbrev romMax : Nat := 3584

/-- Glyphs 0 to 7 of the default font (70_reset_and_hazards.md R331). -/
def fontLow : List Byte :=
  [0xF0, 0x90, 0x90, 0x90, 0xF0] ++ [0x20, 0x60, 0x20, 0x20, 0x70] ++
  [0xF0, 0x10, 0xF0, 0x80, 0xF0] ++ [0xF0, 0x10, 0xF0, 0x10, 0xF0] ++
  [0x90, 0x90, 0xF0, 0x10, 0x10] ++ [0xF0, 0x80, 0xF0, 0x10, 0xF0] ++
  [0xF0, 0x80, 0xF0, 0x90, 0xF0] ++ [0xF0, 0x10, 0x20, 0x40, 0x40]

/-- Glyphs 8 to F of the default font (70_reset_and_hazards.md R331). -/
def fontHigh : List Byte :=
  [0xF0, 0x90, 0xF0, 0x90, 0xF0] ++ [0xF0, 0x90, 0xF0, 0x10, 0xF0] ++
  [0xF0, 0x90, 0xF0, 0x90, 0x90] ++ [0xE0, 0x90, 0xE0, 0x90, 0xE0] ++
  [0xF0, 0x80, 0x80, 0x80, 0xF0] ++ [0xE0, 0x90, 0x90, 0x90, 0xE0] ++
  [0xF0, 0x80, 0xF0, 0x80, 0xF0] ++ [0xF0, 0x80, 0xF0, 0x80, 0x80]

/-- FONT: the 80 bytes the Initializer copies to 0x50, an open parameter (00_scope.md R7). The Initializer takes one
as its argument, so a claim about it holds for every table. -/
abbrev Font := Vector Byte fontSize

/-- The default of FONT (70_reset_and_hazards.md R331), as a list. -/
def defaultFontBytes : List Byte := fontLow ++ fontHigh

/-- The default of FONT (70_reset_and_hazards.md R331), the one of State.reset. DESIGN CHOICE, unsafe for a claim about
State.reset that reads glyph bytes: log entry 2. -/
def defaultFont : Font := ⟨defaultFontBytes.toArray, rfl⟩

/-- RND: the random byte the k-th Cxkk of a machine's history is offered (40_cycle.md R116, "a free input of
every cycle, under no law"). A free value: it has no body, so no proof can see a value of it. Log entry 1. -/
opaque rnd : Nat → Byte

end Sys2Proof.Config
end

