-- ==== Sys2Proof/Syntax.lean ====
section
/-! DEFINITION. The instructions: one constructor per row of spec/opcode_table.json (30_encoding.md R76), its fields at the widths of R71. -/

namespace Sys2Proof

/-- The 34 instructions. Every operand has the width of its field (30_encoding.md R71), so each value of the type
is an instruction the encoding admits. A word no row matches is no instruction: 40_cycle.md R108 gives it its
meaning in the cycle. -/
inductive Instr where
  /-- 00E0 CLS -/
  | cls
  /-- 00EE RET -/
  | ret
  /-- 1nnn JP nnn -/
  | jp (nnn : Addr12)
  /-- 2nnn CALL nnn -/
  | call (nnn : Addr12)
  /-- 3xkk SE Vx, kk -/
  | seImm (x : RegIdx) (kk : Byte)
  /-- 4xkk SNE Vx, kk -/
  | sneImm (x : RegIdx) (kk : Byte)
  /-- 5xy0 SE Vx, Vy -/
  | seReg (x y : RegIdx)
  /-- 6xkk LD Vx, kk -/
  | ldImm (x : RegIdx) (kk : Byte)
  /-- 7xkk ADD Vx, kk -/
  | addImm (x : RegIdx) (kk : Byte)
  /-- 8xy0 LD Vx, Vy -/
  | ldReg (x y : RegIdx)
  /-- 8xy1 OR Vx, Vy -/
  | orReg (x y : RegIdx)
  /-- 8xy2 AND Vx, Vy -/
  | andReg (x y : RegIdx)
  /-- 8xy3 XOR Vx, Vy -/
  | xorReg (x y : RegIdx)
  /-- 8xy4 ADD Vx, Vy -/
  | addReg (x y : RegIdx)
  /-- 8xy5 SUB Vx, Vy -/
  | subReg (x y : RegIdx)
  /-- 8xy6 SHR Vx; y is decoded and not used (30_encoding.md R74) -/
  | shr (x y : RegIdx)
  /-- 8xy7 SUBN Vx, Vy -/
  | subnReg (x y : RegIdx)
  /-- 8xyE SHL Vx; y is decoded and not used (30_encoding.md R74) -/
  | shl (x y : RegIdx)
  /-- 9xy0 SNE Vx, Vy -/
  | sneReg (x y : RegIdx)
  /-- Annn LD I, nnn -/
  | ldI (nnn : Addr12)
  /-- Bnnn JP V0, nnn -/
  | jpV0 (nnn : Addr12)
  /-- Cxkk RND Vx, kk -/
  | rnd (x : RegIdx) (kk : Byte)
  /-- Dxyn DRW Vx, Vy, n -/
  | drw (x y : RegIdx) (n : Count)
  /-- Ex9E SKP Vx -/
  | skp (x : RegIdx)
  /-- ExA1 SKNP Vx -/
  | sknp (x : RegIdx)
  /-- Fx07 LD Vx, DT -/
  | ldVxDT (x : RegIdx)
  /-- Fx0A LD Vx, K -/
  | ldVxK (x : RegIdx)
  /-- Fx15 LD DT, Vx -/
  | ldDTVx (x : RegIdx)
  /-- Fx18 LD ST, Vx -/
  | ldSTVx (x : RegIdx)
  /-- Fx1E ADD I, Vx -/
  | addIVx (x : RegIdx)
  /-- Fx29 LD F, Vx -/
  | ldFVx (x : RegIdx)
  /-- Fx33 LD B, Vx -/
  | ldBVx (x : RegIdx)
  /-- Fx55 LD [I], Vx -/
  | storeV (x : RegIdx)
  /-- Fx65 LD Vx, [I] -/
  | loadV (x : RegIdx)
  deriving DecidableEq, Repr

end Sys2Proof
end

