-- ==== Sys2Proof/WellFormed.lean ====
section
/-! DEFINITION. Well-formed instruction words: the patterns of spec/opcode_table.json as mask and value rows, kept apart from the decoder so that the two can be held against each other. -/

namespace Sys2Proof

/-- One pattern of 30_encoding.md R76: a word matches when its bits under the mask are the value, that is when
every fixed digit is as the pattern has it (R77). -/
structure PatternRow where
  name : String
  mask : Word
  value : Word
  deriving DecidableEq, Repr

/-- R75: the fixed digits equal the corresponding nibbles of the word. -/
def PatternRow.accepts (r : PatternRow) (w : Word) : Bool := w &&& r.mask == r.value

/-- The rows of ops 0 to 5, 9 and B (30_encoding.md R76). -/
def rowsControl : List PatternRow :=
  [{ name := "00E0", mask := 0xFFFF, value := 0x00E0 },
   { name := "00EE", mask := 0xFFFF, value := 0x00EE },
   { name := "1nnn", mask := 0xF000, value := 0x1000 },
   { name := "2nnn", mask := 0xF000, value := 0x2000 },
   { name := "3xkk", mask := 0xF000, value := 0x3000 },
   { name := "4xkk", mask := 0xF000, value := 0x4000 },
   { name := "5xy0", mask := 0xF00F, value := 0x5000 },
   { name := "9xy0", mask := 0xF00F, value := 0x9000 },
   { name := "Bnnn", mask := 0xF000, value := 0xB000 }]

/-- The rows of ops 6, 7, 8 and C (30_encoding.md R76). -/
def rowsAlu : List PatternRow :=
  [{ name := "6xkk", mask := 0xF000, value := 0x6000 },
   { name := "7xkk", mask := 0xF000, value := 0x7000 },
   { name := "8xy0", mask := 0xF00F, value := 0x8000 },
   { name := "8xy1", mask := 0xF00F, value := 0x8001 },
   { name := "8xy2", mask := 0xF00F, value := 0x8002 },
   { name := "8xy3", mask := 0xF00F, value := 0x8003 },
   { name := "8xy4", mask := 0xF00F, value := 0x8004 },
   { name := "8xy5", mask := 0xF00F, value := 0x8005 },
   { name := "8xy6", mask := 0xF00F, value := 0x8006 },
   { name := "8xy7", mask := 0xF00F, value := 0x8007 },
   { name := "8xyE", mask := 0xF00F, value := 0x800E },
   { name := "Cxkk", mask := 0xF000, value := 0xC000 }]

/-- The rows of ops A and D (30_encoding.md R76). -/
def rowsIndexDisplay : List PatternRow :=
  [{ name := "Annn", mask := 0xF000, value := 0xA000 },
   { name := "Dxyn", mask := 0xF000, value := 0xD000 }]

/-- The rows of op E (30_encoding.md R76). -/
def rowsKeys : List PatternRow :=
  [{ name := "Ex9E", mask := 0xF0FF, value := 0xE09E },
   { name := "ExA1", mask := 0xF0FF, value := 0xE0A1 }]

/-- The rows of op F (30_encoding.md R76). -/
def rowsF : List PatternRow :=
  [{ name := "Fx07", mask := 0xF0FF, value := 0xF007 },
   { name := "Fx0A", mask := 0xF0FF, value := 0xF00A },
   { name := "Fx15", mask := 0xF0FF, value := 0xF015 },
   { name := "Fx18", mask := 0xF0FF, value := 0xF018 },
   { name := "Fx1E", mask := 0xF0FF, value := 0xF01E },
   { name := "Fx29", mask := 0xF0FF, value := 0xF029 },
   { name := "Fx33", mask := 0xF0FF, value := 0xF033 },
   { name := "Fx55", mask := 0xF0FF, value := 0xF055 },
   { name := "Fx65", mask := 0xF0FF, value := 0xF065 }]

/-- The 34 patterns of the opcode map (30_encoding.md R76). -/
def opcodeRows : List PatternRow := rowsControl ++ rowsAlu ++ rowsIndexDisplay ++ rowsKeys ++ rowsF

/-- A word is well-formed when some pattern matches it; every other word is unmapped (30_encoding.md R77, R78).
An Instr needs no check of its own: its operands have the widths of their fields. -/
def wordWellFormed (w : Word) : Bool := opcodeRows.any (fun r => r.accepts w)

/-- The row of the opcode table that a constructor stands for. -/
def Instr.row : Instr → PatternRow
  | .cls => { name := "00E0", mask := 0xFFFF, value := 0x00E0 }
  | .ret => { name := "00EE", mask := 0xFFFF, value := 0x00EE }
  | .jp _ => { name := "1nnn", mask := 0xF000, value := 0x1000 }
  | .call _ => { name := "2nnn", mask := 0xF000, value := 0x2000 }
  | .seImm _ _ => { name := "3xkk", mask := 0xF000, value := 0x3000 }
  | .sneImm _ _ => { name := "4xkk", mask := 0xF000, value := 0x4000 }
  | .seReg _ _ => { name := "5xy0", mask := 0xF00F, value := 0x5000 }
  | .ldImm _ _ => { name := "6xkk", mask := 0xF000, value := 0x6000 }
  | .addImm _ _ => { name := "7xkk", mask := 0xF000, value := 0x7000 }
  | .ldReg _ _ => { name := "8xy0", mask := 0xF00F, value := 0x8000 }
  | .orReg _ _ => { name := "8xy1", mask := 0xF00F, value := 0x8001 }
  | .andReg _ _ => { name := "8xy2", mask := 0xF00F, value := 0x8002 }
  | .xorReg _ _ => { name := "8xy3", mask := 0xF00F, value := 0x8003 }
  | .addReg _ _ => { name := "8xy4", mask := 0xF00F, value := 0x8004 }
  | .subReg _ _ => { name := "8xy5", mask := 0xF00F, value := 0x8005 }
  | .shr _ _ => { name := "8xy6", mask := 0xF00F, value := 0x8006 }
  | .subnReg _ _ => { name := "8xy7", mask := 0xF00F, value := 0x8007 }
  | .shl _ _ => { name := "8xyE", mask := 0xF00F, value := 0x800E }
  | .sneReg _ _ => { name := "9xy0", mask := 0xF00F, value := 0x9000 }
  | .ldI _ => { name := "Annn", mask := 0xF000, value := 0xA000 }
  | .jpV0 _ => { name := "Bnnn", mask := 0xF000, value := 0xB000 }
  | .rnd _ _ => { name := "Cxkk", mask := 0xF000, value := 0xC000 }
  | .drw _ _ _ => { name := "Dxyn", mask := 0xF000, value := 0xD000 }
  | .skp _ => { name := "Ex9E", mask := 0xF0FF, value := 0xE09E }
  | .sknp _ => { name := "ExA1", mask := 0xF0FF, value := 0xE0A1 }
  | .ldVxDT _ => { name := "Fx07", mask := 0xF0FF, value := 0xF007 }
  | .ldVxK _ => { name := "Fx0A", mask := 0xF0FF, value := 0xF00A }
  | .ldDTVx _ => { name := "Fx15", mask := 0xF0FF, value := 0xF015 }
  | .ldSTVx _ => { name := "Fx18", mask := 0xF0FF, value := 0xF018 }
  | .addIVx _ => { name := "Fx1E", mask := 0xF0FF, value := 0xF01E }
  | .ldFVx _ => { name := "Fx29", mask := 0xF0FF, value := 0xF029 }
  | .ldBVx _ => { name := "Fx33", mask := 0xF0FF, value := 0xF033 }
  | .storeV _ => { name := "Fx55", mask := 0xF0FF, value := 0xF055 }
  | .loadV _ => { name := "Fx65", mask := 0xF0FF, value := 0xF065 }

end Sys2Proof
end

