-- ==== Sys2Proof/Decode.lean ====
section
/-! DEFINITION. The decoder, total on every word (30_encoding.md R71, R75 to R78), and the encoder written from the same opcode map. -/

namespace Sys2Proof

/-- What the decoder reads from a word: an instruction, or the named rejection "unmapped" with the word
(30_encoding.md R77, R78), which the cycle executes as a no-op (40_cycle.md R108). -/
inductive Decoded where
  | instr (i : Instr)
  | unmapped (w : Word)
  deriving DecidableEq, Repr

/-- The instruction of a decoding, if it has one. -/
def Decoded.instr? : Decoded → Option Instr
  | .instr i => some i
  | .unmapped _ => none

/-- The op nibble, bits 15:12 (30_encoding.md R71). -/
def opField (w : Word) : BitVec 4 := w.extractLsb' 12 4

/-- x, bits 11:8 (30_encoding.md R71). -/
def xField (w : Word) : RegIdx := w.extractLsb' 8 4

/-- y, bits 7:4 (30_encoding.md R71). -/
def yField (w : Word) : RegIdx := w.extractLsb' 4 4

/-- n, bits 3:0 (30_encoding.md R71). -/
def nField (w : Word) : Count := w.extractLsb' 0 4

/-- kk, bits 7:0 (30_encoding.md R71). -/
def kkField (w : Word) : Byte := w.extractLsb' 0 8

/-- nnn, bits 11:0 (30_encoding.md R71). -/
def nnnField (w : Word) : Addr12 := w.extractLsb' 0 12

/-- Op 0 of the opcode map: 00E0, 00EE, all other words unmapped (30_encoding.md R76). -/
def decode0 (w : Word) : Decoded :=
  if w = 0x00E0#16 then .instr .cls
  else if w = 0x00EE#16 then .instr .ret
  else .unmapped w

/-- Op 8 of the opcode map, by the low nibble (30_encoding.md R76). -/
def decode8 (w : Word) : Decoded :=
  match (nField w).toNat with
  | 0x0 => .instr (.ldReg (xField w) (yField w))
  | 0x1 => .instr (.orReg (xField w) (yField w))
  | 0x2 => .instr (.andReg (xField w) (yField w))
  | 0x3 => .instr (.xorReg (xField w) (yField w))
  | 0x4 => .instr (.addReg (xField w) (yField w))
  | 0x5 => .instr (.subReg (xField w) (yField w))
  | 0x6 => .instr (.shr (xField w) (yField w))
  | 0x7 => .instr (.subnReg (xField w) (yField w))
  | 0xE => .instr (.shl (xField w) (yField w))
  | _ => .unmapped w

/-- Op E of the opcode map, by the low byte (30_encoding.md R76). -/
def decodeE (w : Word) : Decoded :=
  match (kkField w).toNat with
  | 0x9E => .instr (.skp (xField w))
  | 0xA1 => .instr (.sknp (xField w))
  | _ => .unmapped w

/-- Op F of the opcode map, by the low byte (30_encoding.md R76). -/
def decodeF (w : Word) : Decoded :=
  match (kkField w).toNat with
  | 0x07 => .instr (.ldVxDT (xField w))
  | 0x0A => .instr (.ldVxK (xField w))
  | 0x15 => .instr (.ldDTVx (xField w))
  | 0x18 => .instr (.ldSTVx (xField w))
  | 0x1E => .instr (.addIVx (xField w))
  | 0x29 => .instr (.ldFVx (xField w))
  | 0x33 => .instr (.ldBVx (xField w))
  | 0x55 => .instr (.storeV (xField w))
  | 0x65 => .instr (.loadV (xField w))
  | _ => .unmapped w

/-- The decoder: the opcode map of 30_encoding.md R76 by the op nibble. A pure function with no error
condition (R71). The last arm is never reached, since op has 4 bits. -/
def decode (w : Word) : Decoded :=
  match (opField w).toNat with
  | 0x0 => decode0 w
  | 0x1 => .instr (.jp (nnnField w))
  | 0x2 => .instr (.call (nnnField w))
  | 0x3 => .instr (.seImm (xField w) (kkField w))
  | 0x4 => .instr (.sneImm (xField w) (kkField w))
  | 0x5 => if nField w = 0#4 then .instr (.seReg (xField w) (yField w)) else .unmapped w
  | 0x6 => .instr (.ldImm (xField w) (kkField w))
  | 0x7 => .instr (.addImm (xField w) (kkField w))
  | 0x8 => decode8 w
  | 0x9 => if nField w = 0#4 then .instr (.sneReg (xField w) (yField w)) else .unmapped w
  | 0xA => .instr (.ldI (nnnField w))
  | 0xB => .instr (.jpV0 (nnnField w))
  | 0xC => .instr (.rnd (xField w) (kkField w))
  | 0xD => .instr (.drw (xField w) (yField w) (nField w))
  | 0xE => decodeE w
  | 0xF => decodeF w
  | _ => .unmapped w

/-- The word of the two bytes at a and a + 1, big-endian: the byte at a gives bits 15:8 (20_memory.md R55). -/
def wordOfBytes (hi lo : Byte) : Word := hi ++ lo

/-- The byte of a word stored at the lower address, bits 15:8 (20_memory.md R55). -/
def hiByte (w : Word) : Byte := w.extractLsb' 8 8

/-- The byte of a word stored at the higher address, bits 7:0 (20_memory.md R55). -/
def loByte (w : Word) : Byte := w.extractLsb' 0 8

/-- The decoder on the two bytes of an instruction in memory order. -/
def decodeBytes (hi lo : Byte) : Decoded := decode (wordOfBytes hi lo)

/-- The word of an instruction, by the formats of 30_encoding.md R72 and the op map of R76. -/
def encode : Instr → Word
  | .cls => 0x00E0#16
  | .ret => 0x00EE#16
  | .jp nnn => 0x1#4 ++ nnn
  | .call nnn => 0x2#4 ++ nnn
  | .seImm x kk => 0x3#4 ++ x ++ kk
  | .sneImm x kk => 0x4#4 ++ x ++ kk
  | .seReg x y => 0x5#4 ++ x ++ y ++ 0x0#4
  | .ldImm x kk => 0x6#4 ++ x ++ kk
  | .addImm x kk => 0x7#4 ++ x ++ kk
  | .ldReg x y => 0x8#4 ++ x ++ y ++ 0x0#4
  | .orReg x y => 0x8#4 ++ x ++ y ++ 0x1#4
  | .andReg x y => 0x8#4 ++ x ++ y ++ 0x2#4
  | .xorReg x y => 0x8#4 ++ x ++ y ++ 0x3#4
  | .addReg x y => 0x8#4 ++ x ++ y ++ 0x4#4
  | .subReg x y => 0x8#4 ++ x ++ y ++ 0x5#4
  | .shr x y => 0x8#4 ++ x ++ y ++ 0x6#4
  | .subnReg x y => 0x8#4 ++ x ++ y ++ 0x7#4
  | .shl x y => 0x8#4 ++ x ++ y ++ 0xE#4
  | .sneReg x y => 0x9#4 ++ x ++ y ++ 0x0#4
  | .ldI nnn => 0xA#4 ++ nnn
  | .jpV0 nnn => 0xB#4 ++ nnn
  | .rnd x kk => 0xC#4 ++ x ++ kk
  | .drw x y n => 0xD#4 ++ x ++ y ++ n
  | .skp x => 0xE#4 ++ x ++ 0x9E#8
  | .sknp x => 0xE#4 ++ x ++ 0xA1#8
  | .ldVxDT x => 0xF#4 ++ x ++ 0x07#8
  | .ldVxK x => 0xF#4 ++ x ++ 0x0A#8
  | .ldDTVx x => 0xF#4 ++ x ++ 0x15#8
  | .ldSTVx x => 0xF#4 ++ x ++ 0x18#8
  | .addIVx x => 0xF#4 ++ x ++ 0x1E#8
  | .ldFVx x => 0xF#4 ++ x ++ 0x29#8
  | .ldBVx x => 0xF#4 ++ x ++ 0x33#8
  | .storeV x => 0xF#4 ++ x ++ 0x55#8
  | .loadV x => 0xF#4 ++ x ++ 0x65#8

/-- The one 16-bit word that nbits bits of w stand for, the bits above nbits being 0. -/
def tableWord (nbits w : Nat) : Word := BitVec.ofNat 16 (w % 2 ^ nbits)

/-- The instruction the decoder reads from an opcode-table word: its two bytes laid out big-endian
(30_encoding.md R70) and given to the decoder; none where the word is unmapped. -/
def decodeTableWord (nbits w : Nat) : Option Instr :=
  (decodeBytes (hiByte (tableWord nbits w)) (loByte (tableWord nbits w))).instr?

end Sys2Proof
end

