-- ==== Sys2Proof/Machine/State.lean ====
section
/-! DEFINITION. The architectural state of 10_state.md R20 as plain data, the outcomes' reason types, and the state after the Initializer (R38). -/

namespace Sys2Proof.Machine

/-- MEM: the cells that differ from the reset contents, by rising address (20_memory.md R50). What an unlisted
address reads as is resetByte of Machine/Ops.lean. -/
abbrev Memory := List Host.Cell

/-- PIX[px][py], column first, true when the pixel is on (10_state.md R31). -/
abbrev Screen := Vector (Vector Bool 32) 64

/-- The fault causes (60_exceptions.md R301). -/
inductive Cause where
  /-- No fault recorded. -/
  | none
  /-- A fetch with PC + 1 above 0xFFF. -/
  | fetchOob
  /-- A data access above 0xFFF by Dxyn, Fx33, Fx55 or Fx65. -/
  | memOob
  /-- 2nnn with SP = 16. -/
  | stackOverflow
  /-- 00EE with SP = 0. -/
  | stackUnderflow
  /-- Ex9E or ExA1 with V[x] above 15. -/
  | keyRange
  deriving DecidableEq, Repr

/-- FAULT: the fault status record (10_state.md R34). -/
structure FaultRecord where
  /-- CAUSE; NONE when no fault is recorded. -/
  cause : Cause
  /-- FPC: the PC of the cycle that faulted. -/
  fpc : Word
  /-- FWORD: the instruction word of that cycle, 0x0000 when the fetch itself faulted. -/
  fword : Word
  /-- FINFO: the cause-specific value of 60_exceptions.md R303. -/
  finfo : Word
  deriving DecidableEq, Repr

/-- The state of 10_state.md R20, and one field of the model's own (draws). -/
structure State where
  /-- MEM[0..4095] (20_memory.md R50). -/
  mem : Memory
  /-- V[0..15] (R21). -/
  v : Vector Byte 16
  /-- I (R24). -/
  i : Word
  /-- PC (R25). -/
  pc : Word
  /-- SP, the number of occupied slots, 0 to 16 (R27). -/
  sp : Fin 17
  /-- STACK[0..15] (R27). -/
  stack : Vector Word 16
  /-- DT, the delay timer (R29). -/
  dt : Byte
  /-- ST, the sound timer (R29). -/
  st : Byte
  /-- KEY[0..15], true when the key is pressed (R30). -/
  key : Vector Bool 16
  /-- PIX[0..63][0..31] (R31). -/
  pix : Screen
  /-- DIRTY (R32). -/
  dirty : Bool
  /-- AWAIT (R33). -/
  await : Bool
  /-- FAULT (R34). -/
  fault : FaultRecord
  /-- The model's own, not the spec's: how many random bytes Cxkk has drawn, the index of the next free value
  of Config.rnd. DESIGN CHOICE: log entry 1. -/
  draws : Nat
  deriving DecidableEq, Repr

/-- The reasons a step stops with a fault: none. Every fault the spec names (60_exceptions.md R301) has an entry
the spec describes (R302) and is a next state with FAULT written and the core halted, so no constructor stands here;
safe, since no path ends in one. -/
inductive Fault : Type
  deriving DecidableEq, Repr

/-- The reasons a step is refused. -/
inductive Refusal where
  /-- Raised by exec's arm of an instruction that has no meaning yet; no arm is one. Safe: it only stops. -/
  | notModelled (mnemonic : String)
  deriving DecidableEq, Repr

/-- FAULT after the Initializer: CAUSE, FPC, FWORD and FINFO all 0 (10_state.md R38). -/
def FaultRecord.clear : FaultRecord := { cause := .none, fpc := 0#16, fword := 0#16, finfo := 0#16 }

/-- The state after the Initializer (10_state.md R38, 70_reset_and_hazards.md R330) with FONT at its default (log
entry 2); State.initial of Machine/HostOps.lean takes FONT as an argument. No memory cell is listed: an unlisted
address reads as the Initializer leaves it with that FONT. draws is the model's own (log entry 1). -/
def State.reset : State where
  mem := []
  v := Vector.replicate 16 0#8
  i := 0x0000#16
  pc := 0x0200#16
  sp := 0
  stack := Vector.replicate 16 0x0000#16
  dt := 0x00#8
  st := 0x00#8
  key := Vector.replicate 16 false
  pix := Vector.replicate 64 (Vector.replicate 32 false)
  dirty := false
  await := false
  fault := FaultRecord.clear
  draws := 0

end Sys2Proof.Machine
end

