-- ==== Sys2Proof/Machine/Ops.lean ====
section
/-! DEFINITION. The operations every meaning is written over: memory, registers, the call stack, the screen, the fault entry and the timer tick. -/

namespace Sys2Proof.Machine

/-! ### Memory -/

/-- What an unlisted address reads as: the byte of State.reset there, the default of FONT at 0x050 to 0x09F and 0x00
elsewhere (10_state.md R38). It fixes how a memory is written down, not what a memory can hold: with another FONT the
cells that differ are listed (log entry 5). -/
def resetByte (a : Nat) : Byte :=
  if Config.fontBase ≤ a then Config.defaultFontBytes.getD (a - Config.fontBase) 0x00#8 else 0x00#8

/-- MEM[a], for an address that the range check has passed. -/
def Memory.byteAt : Memory → Nat → Byte
  | [], a => resetByte a
  | (k, c) :: m, a => if a = k then c else Memory.byteAt m a

/-- List the cell (a, b) in front of m, unless a reads as b when unlisted. -/
def Memory.consCell (m : Memory) (a : Nat) (b : Byte) : Memory :=
  if b = resetByte a then m else (a, b) :: m

/-- MEM[a] <- b, for an address that the range check has passed. It keeps the canonical form. -/
def Memory.put : Memory → Nat → Byte → Memory
  | [], a, b => Memory.consCell [] a b
  | (k, c) :: m, a, b =>
    if a < k then Memory.consCell ((k, c) :: m) a b
    else if a = k then Memory.consCell m a b
    else (k, c) :: Memory.put m a b

/-- The bytes bs stored at a, a + 1, ... in ascending order (20_memory.md R62). -/
def Memory.putBytes : Memory → Nat → List Byte → Memory
  | m, _, [] => m
  | m, a, b :: bs => Memory.putBytes (Memory.put m a b) (a + 1) bs

/-- The n bytes read at a, a + 1, ... in ascending order (20_memory.md R62). -/
def Memory.bytesAt (m : Memory) (a n : Nat) : List Byte := (List.range n).map (fun k => m.byteAt (a + k))

/-- The canonical form from address lo on: addresses rise strictly, lie in 0x000 to 0xFFF, and no listed byte is
what its address reads as when unlisted. -/
def Memory.wfFrom : Nat → Memory → Bool
  | _, [] => true
  | lo, (a, b) :: m =>
    decide (lo ≤ a) && decide (a < Config.memSize) && decide (b ≠ resetByte a) && Memory.wfFrom (a + 1) m

/-- The canonical form of memory: equal memories are equal lists. -/
def Memory.wf (m : Memory) : Bool := Memory.wfFrom 0 m

/-- The first address above 0xFFF among a, a + 1, ..., a + n - 1, the exact naturals of 20_memory.md R54, if
there is one. -/
def firstOob (a n : Nat) : Option Nat :=
  ((List.range n).map (fun k => a + k)).find? (fun e => decide (0xFFF < e))

/-- MemRead of n consecutive bytes (20_memory.md R52, R54): every address is checked before any is read; the error
is the first address out of range. -/
def Memory.readRange (m : Memory) (a n : Nat) : Except Nat (List Byte) :=
  match firstOob a n with
  | some e => .error e
  | none => .ok (m.bytesAt a n)

/-- MemWrite of consecutive bytes (20_memory.md R53, R54): every address is checked before any is written; the
error is the first address out of range. -/
def Memory.writeRange (m : Memory) (a : Nat) (bs : List Byte) : Except Nat Memory :=
  match firstOob a bs.length with
  | some e => .error e
  | none => .ok (m.putBytes a bs)

/-! ### Fields, one setter each -/

/-- MEM replaced. -/
def State.setMem (s : State) (m : Memory) : State := { s with mem := m }

/-- V[x] (00_scope.md R10). -/
def State.getV (s : State) (x : RegIdx) : Byte := s.v[x.toNat]

/-- V[x] <- b (00_scope.md R10). No register is hard-wired (10_state.md R21). -/
def State.setV (s : State) (x : RegIdx) (b : Byte) : State := { s with v := s.v.set x.toNat b x.isLt }

/-- The whole register file replaced. -/
def State.setRegs (s : State) (v : Vector Byte 16) : State := { s with v := v }

/-- I <- w. -/
def State.setI (s : State) (w : Word) : State := { s with i := w }

/-- PC <- w. -/
def State.setPc (s : State) (w : Word) : State := { s with pc := w }

/-- SP <- n. -/
def State.setSp (s : State) (n : Fin 17) : State := { s with sp := n }

/-- STACK replaced. -/
def State.setStack (s : State) (k : Vector Word 16) : State := { s with stack := k }

/-- DT <- b. -/
def State.setDT (s : State) (b : Byte) : State := { s with dt := b }

/-- ST <- b. -/
def State.setST (s : State) (b : Byte) : State := { s with st := b }

/-- KEY replaced. -/
def State.setKey (s : State) (k : Vector Bool 16) : State := { s with key := k }

/-- PIX replaced. -/
def State.setPix (s : State) (p : Screen) : State := { s with pix := p }

/-- DIRTY <- b. -/
def State.setDirty (s : State) (b : Bool) : State := { s with dirty := b }

/-- AWAIT <- b. -/
def State.setAwait (s : State) (b : Bool) : State := { s with await := b }

/-- FAULT <- f. -/
def State.setFault (s : State) (f : FaultRecord) : State := { s with fault := f }

/-- The model's count of random bytes drawn. -/
def State.setDraws (s : State) (n : Nat) : State := { s with draws := n }

/-! ### The program counter and the call stack -/

/-- PC <- (PC + 2) mod 2^16: the advance of 40_cycle.md R104, and a taken skip (41_control_flow.md R140). -/
def State.advance (s : State) : State := s.setPc (s.pc + 2#16)

/-- A skip when c holds (41_control_flow.md R140). -/
def State.skipIf (s : State) (c : Bool) : State := if c then s.advance else s

/-- PC <- (PC - 2) mod 2^16: back to the address of the instruction of this cycle (10_state.md R26). -/
def State.stepBack (s : State) : State := s.setPc (s.pc - 2#16)

/-- STACK[SP] <- a; SP <- SP + 1, or none when SP = 16 (10_state.md R28). -/
def State.push (s : State) (a : Word) : Option State :=
  if h : s.sp.val < 16 then
    some ((s.setStack (s.stack.set s.sp.val a h)).setSp ⟨s.sp.val + 1, by omega⟩)
  else none

/-- SP <- SP - 1; the result is STACK[SP], or none when SP = 0 (10_state.md R28). The slot keeps its value. -/
def State.pop (s : State) : Option (Word × State) :=
  if h : s.sp.val = 0 then none
  else some (s.stack[s.sp.val - 1], s.setSp ⟨s.sp.val - 1, by omega⟩)

/-! ### The screen -/

/-- PIX[px][py]; a place outside the grid is not on. -/
def Screen.isOn (p : Screen) (px py : Nat) : Bool :=
  if h : px < 64 ∧ py < 32 then (p[px])[py] else false

/-- PIX[px][py] <- PIX[px][py] ^ 1; a place outside the grid is clipped (44_display.md R246, R247). -/
def Screen.toggle (p : Screen) (px py : Nat) : Screen :=
  if h : px < 64 ∧ py < 32 then p.set px ((p[px]).set py (!(p[px])[py])) else p

/-- Every pixel off. -/
def Screen.blank : Screen := Vector.replicate 64 (Vector.replicate 32 false)

/-! ### Faults -/

/-- CAUSE ≠ 0: the core is halted (10_state.md R34). -/
def State.halted (s : State) : Bool := decide (s.fault.cause ≠ .none)

/-- The code of a cause, 3 bits; codes 6 and 7 are unused (60_exceptions.md R301). -/
def Cause.code : Cause → BitVec 3
  | .none => 0#3
  | .fetchOob => 1#3
  | .memOob => 2#3
  | .stackOverflow => 3#3
  | .stackUnderflow => 4#3
  | .keyRange => 5#3

/-- The fault entry (60_exceptions.md R302): FAULT records the cause, the PC at the start of the cycle, the fetched
word and the cause's value; PC is left at that address, AWAIT is cleared, and nothing else changes. -/
def State.enterFault (s : State) (c : Cause) (fpc fword finfo : Word) : State :=
  ((s.setPc fpc).setAwait false).setFault { cause := c, fpc := fpc, fword := fword, finfo := finfo }

/-- raise Fault(c, info) by instruction i (00_scope.md R10). PC has been advanced (40_cycle.md R104), so the
address of the instruction is PC - 2; FWORD is its encoding (60_exceptions.md R303). A meaning raises before it
writes anything, so the state is the one before the cycle with only FAULT, PC and AWAIT as R302 says. -/
def State.raise (s : State) (c : Cause) (i : Instr) (info : Word) : State :=
  s.enterFault c (s.pc - 2#16) (encode i) info

/-- FINFO of a memory fault: the out-of-range address, which fits 16 bits (60_exceptions.md R303). -/
def infoOfAddr (a : Nat) : Word := BitVec.ofNat 16 a

/-! ### The fetch and the two ends of a cycle -/

/-- The instruction fetch at PC (40_cycle.md R102): the two bytes at PC and PC + 1 as a big-endian word, or the
first of the two addresses above 0xFFF. -/
def State.fetch (s : State) : Except Word Word :=
  match s.mem.readRange s.pc.toNat 2 with
  | .error e => .error (infoOfAddr e)
  | .ok bs => .ok (wordOfBytes (bs.getD 0 0x00#8) (bs.getD 1 0x00#8))

/-- The start of a cycle that has fetched: stalled <- 0 and the advance of PC (40_cycle.md R104, R118). AWAIT holds
stalled through the cycle (R110). -/
def State.beginCycle (s : State) : State := (s.setAwait false).advance

/-- One timer's tick (40_cycle.md R107): it falls by one while nonzero. -/
def tickDown (b : Byte) : Byte := if b = 0x00#8 then 0x00#8 else b - 0x01#8

/-- The timer tick (40_cycle.md R107). -/
def State.tick (s : State) : State := (s.setDT (tickDown s.dt)).setST (tickDown s.st)

/-- The end of a cycle: the tick, but not where the instruction has faulted (40_cycle.md R107, R109). -/
def State.endCycle (s : State) : State := if s.halted then s else s.tick

/-- w stored big-endian at PC. Where PC or the fault record would keep the next step from fetching, PC is moved to
the entry point and the fault cleared, so that the next step always fetches w. -/
def State.placeWord (s : State) (w : Word) : State :=
  let s := if s.pc.toNat < 0xFFF then s else s.setPc 0x0200#16
  let s := if s.halted then s.setFault FaultRecord.clear else s
  s.setMem (s.mem.putBytes s.pc.toNat [hiByte w, loByte w])

end Sys2Proof.Machine
end

