-- ==== Sys2Proof/Machine/Flags.lean ====
section
/-! DEFINITION. The values VF receives (10_state.md R22): carry, strictly greater, the bit shifted out, collision. -/

namespace Sys2Proof.Machine

/-- bool(c) as a byte (00_scope.md R9). -/
def boolByte (c : Bool) : Byte := if c then 0x01#8 else 0x00#8

/-- The carry of 8xy4: 1 when the exact sum is above 255 (42_alu.md R178). -/
def carryFlag (a b : Byte) : Byte := boolByte (decide (255 < a.toNat + b.toNat))

/-- The flag of 8xy5 and 8xy7: 1 when a is strictly greater than b (42_alu.md R179, R181). -/
def greaterFlag (a b : Byte) : Byte := boolByte (decide (b.toNat < a.toNat))

/-- The flag of 8xy6: bit 0 (42_alu.md R180). -/
def lowBitFlag (a : Byte) : Byte := a &&& 0x01#8

/-- The flag of 8xyE: bit 7 (42_alu.md R182). -/
def highBitFlag (a : Byte) : Byte := (a >>> 7) &&& 0x01#8

end Sys2Proof.Machine
end

