-- ==== Sys2Proof/Machine/Operands.lean ====
section
/-! DEFINITION. The operand forms: immediates, register ranges, effective addresses, key indexes, glyph addresses, decimal digits and the random byte. -/

namespace Sys2Proof.Machine

/-- zext_16(nnn), the value of the address field as PC or I receives it (30_encoding.md R73). -/
def zextAddr (nnn : Addr12) : Word := nnn.setWidth 16

/-- nnn + V[0], not reduced to 12 bits (41_control_flow.md R148). -/
def addrPlusV0 (nnn : Addr12) (s : State) : Word := BitVec.ofNat 16 (nnn.toNat + (s.getV 0x0#4).toNat)

/-- (I + V[x]) mod 2^16 (43_index_memory.md R211). -/
def indexPlus (s : State) (x : RegIdx) : Word := BitVec.ofNat 16 (s.i.toNat + (s.getV x).toNat)

/-- 0x50 + 5 * d, the address of the glyph of d, with d not reduced (43_index_memory.md R212). -/
def glyphAddr (d : Byte) : Word := BitVec.ofNat 16 (0x50 + 5 * d.toNat)

/-- The effective address I + k as an exact natural (20_memory.md R54). -/
def State.effAddr (s : State) (k : Nat) : Nat := s.i.toNat + k

/-- The decimal digits of a byte: hundreds, tens, ones (43_index_memory.md R213). -/
def bcdDigits (b : Byte) : List Byte :=
  [BitVec.ofNat 8 (b.toNat / 100), BitVec.ofNat 8 (b.toNat / 10 % 10), BitVec.ofNat 8 (b.toNat % 10)]

/-- V[0] to V[x] in ascending order, the range of Fx55 (30_encoding.md R74). -/
def State.regRange (s : State) (x : RegIdx) : List Byte := s.v.toList.take (x.toNat + 1)

/-- V[k] <- the next of bs, for k, k + 1, ... (43_index_memory.md R215). -/
def loadRegs : Vector Byte 16 → Nat → List Byte → Vector Byte 16
  | v, _, [] => v
  | v, k, b :: bs => loadRegs (v.setIfInBounds k b) (k + 1) bs

/-- KEY[b], or none when b is above 15 (45_timers_keys.md R270). -/
def State.keyAt (s : State) (b : Byte) : Option Bool := s.key[b.toNat]?

/-- The smallest index of a pressed key, if a key is pressed (45_timers_keys.md R273). -/
def State.firstPressed (s : State) : Option Nat := s.key.toList.findIdx? (fun k => k)

/-- The byte this Cxkk is offered, a free value (40_cycle.md R116; log entry 1). -/
def State.rndByte (s : State) : Byte := Config.rnd s.draws

/-- The column of the sprite's origin, V[x] mod 64 (44_display.md R242). -/
def originX (b : Byte) : Nat := b.toNat % 64

/-- The row of the sprite's origin, V[y] mod 32 (44_display.md R242). -/
def originY (b : Byte) : Nat := b.toNat % 32

end Sys2Proof.Machine
end

