-- ==== Sys2Proof/Machine/Alu.lean ====
section
/-! DEFINITION. Register arithmetic and logic: 6xkk, 7xkk, 8xy0 to 8xy7, 8xyE, Cxkk (42_alu.md). The writes of an instruction stand in the order of its rule (R171). -/

namespace Sys2Proof.Machine

/-- 6xkk LD Vx, kk (42_alu.md R172). -/
def execLdImm (x : RegIdx) (kk : Byte) (s : State) : Host.Outcome State Fault Refusal :=
  .next (s.setV x kk)

/-- 7xkk ADD Vx, kk (42_alu.md R173). -/
def execAddImm (x : RegIdx) (kk : Byte) (s : State) : Host.Outcome State Fault Refusal :=
  .next (s.setV x (s.getV x + kk))

/-- 8xy0 LD Vx, Vy (42_alu.md R174). -/
def execLdReg (x y : RegIdx) (s : State) : Host.Outcome State Fault Refusal :=
  .next (s.setV x (s.getV y))

/-- 8xy1 OR Vx, Vy (42_alu.md R175). -/
def execOrReg (x y : RegIdx) (s : State) : Host.Outcome State Fault Refusal :=
  .next (s.setV x (s.getV x ||| s.getV y))

/-- 8xy2 AND Vx, Vy (42_alu.md R176). -/
def execAndReg (x y : RegIdx) (s : State) : Host.Outcome State Fault Refusal :=
  .next (s.setV x (s.getV x &&& s.getV y))

/-- 8xy3 XOR Vx, Vy (42_alu.md R177). -/
def execXorReg (x y : RegIdx) (s : State) : Host.Outcome State Fault Refusal :=
  .next (s.setV x (s.getV x ^^^ s.getV y))

/-- 8xy4 ADD Vx, Vy (42_alu.md R178): the result first, the carry of the old values after it. -/
def execAddReg (x y : RegIdx) (s : State) : Host.Outcome State Fault Refusal :=
  .next ((s.setV x (s.getV x + s.getV y)).setV VF (carryFlag (s.getV x) (s.getV y)))

/-- 8xy5 SUB Vx, Vy (42_alu.md R179): the flag first; the result reads both registers after it. -/
def execSubReg (x y : RegIdx) (s : State) : Host.Outcome State Fault Refusal :=
  let t := s.setV VF (greaterFlag (s.getV x) (s.getV y))
  .next (t.setV x (t.getV x - t.getV y))

/-- 8xy6 SHR Vx (42_alu.md R180): the flag first; the result reads V[x] after it. V[y] is not read. -/
def execShr (x _y : RegIdx) (s : State) : Host.Outcome State Fault Refusal :=
  let t := s.setV VF (lowBitFlag (s.getV x))
  .next (t.setV x (t.getV x >>> 1))

/-- 8xy7 SUBN Vx, Vy (42_alu.md R181): the flag first; the result reads both registers after it. -/
def execSubnReg (x y : RegIdx) (s : State) : Host.Outcome State Fault Refusal :=
  let t := s.setV VF (greaterFlag (s.getV y) (s.getV x))
  .next (t.setV x (t.getV y - t.getV x))

/-- 8xyE SHL Vx (42_alu.md R182): the flag first; the result reads V[x] after it. V[y] is not read. -/
def execShl (x _y : RegIdx) (s : State) : Host.Outcome State Fault Refusal :=
  let t := s.setV VF (highBitFlag (s.getV x))
  .next (t.setV x (t.getV x <<< 1))

/-- The effect of Cxkk for a given random byte: V[x] <- rnd & kk (42_alu.md R183). -/
def rndEffect (r : Byte) (x : RegIdx) (kk : Byte) (s : State) : State := s.setV x (r &&& kk)

/-- Cxkk RND Vx, kk (42_alu.md R183), with the free byte this draw is offered; the count of draws moves on, so the
next draw is another free value (log entry 1). -/
def execRnd (x : RegIdx) (kk : Byte) (s : State) : Host.Outcome State Fault Refusal :=
  .next ((rndEffect s.rndByte x kk s).setDraws (s.draws + 1))

end Sys2Proof.Machine
end

