-- ==== Sys2Proof/Machine/Control.lean ====
section
/-! DEFINITION. Control transfer: 00EE, 1nnn, 2nnn, 3xkk, 4xkk, 5xy0, 9xy0, Bnnn (41_control_flow.md). Each runs with PC already advanced (40_cycle.md R104). -/

namespace Sys2Proof.Machine

/-- 00EE RET (41_control_flow.md R141). -/
def execRet (s : State) : Host.Outcome State Fault Refusal :=
  match s.pop with
  | none => .next (s.raise .stackUnderflow .ret 0#16)
  | some (a, t) => .next (t.setPc a)

/-- 1nnn JP nnn (41_control_flow.md R142). -/
def execJp (nnn : Addr12) (s : State) : Host.Outcome State Fault Refusal :=
  .next (s.setPc (zextAddr nnn))

/-- 2nnn CALL nnn (41_control_flow.md R143): the return address is the advanced PC. -/
def execCall (nnn : Addr12) (s : State) : Host.Outcome State Fault Refusal :=
  match s.push s.pc with
  | none => .next (s.raise .stackOverflow (.call nnn) 16#16)
  | some t => .next (t.setPc (zextAddr nnn))

/-- 3xkk SE Vx, kk (41_control_flow.md R144). -/
def execSeImm (x : RegIdx) (kk : Byte) (s : State) : Host.Outcome State Fault Refusal :=
  .next (s.skipIf (decide (s.getV x = kk)))

/-- 4xkk SNE Vx, kk (41_control_flow.md R145). -/
def execSneImm (x : RegIdx) (kk : Byte) (s : State) : Host.Outcome State Fault Refusal :=
  .next (s.skipIf (decide (s.getV x ≠ kk)))

/-- 5xy0 SE Vx, Vy (41_control_flow.md R146). -/
def execSeReg (x y : RegIdx) (s : State) : Host.Outcome State Fault Refusal :=
  .next (s.skipIf (decide (s.getV x = s.getV y)))

/-- 9xy0 SNE Vx, Vy (41_control_flow.md R147). -/
def execSneReg (x y : RegIdx) (s : State) : Host.Outcome State Fault Refusal :=
  .next (s.skipIf (decide (s.getV x ≠ s.getV y)))

/-- Bnnn JP V0, nnn (41_control_flow.md R148). -/
def execJpV0 (nnn : Addr12) (s : State) : Host.Outcome State Fault Refusal :=
  .next (s.setPc (addrPlusV0 nnn s))

end Sys2Proof.Machine
end

