-- ==== Sys2Proof/Machine/Display.lean ====
section
/-! DEFINITION. The display: 00E0 and the sprite raster and collision of Dxyn (44_display.md). -/

namespace Sys2Proof.Machine

/-- What the raster carries: the screen, and whether a pixel has been turned off (the flag of R248). -/
structure Raster where
  screen : Screen
  hit : Bool
  deriving DecidableEq, Repr

/-- One set sprite bit at (px, py): the collision test before the toggle, nothing outside the grid
(44_display.md R246 to R248). -/
def drawPixel (px py : Nat) (d : Raster) : Raster :=
  { screen := d.screen.toggle px py, hit := d.hit || d.screen.isOn px py }

/-- Columns c, c + 1, ... of a sprite row, k of them: column c is bit 7 - c of the byte (44_display.md R245). -/
def drawCols (b : Byte) (x0 py : Nat) : Nat → Nat → Raster → Raster
  | 0, _, d => d
  | k + 1, c, d => drawCols b x0 py k (c + 1) (if b.getLsbD (7 - c) then drawPixel (x0 + c) py d else d)

/-- The sprite rows from row py on (44_display.md R241). -/
def drawRows (x0 : Nat) : List Byte → Nat → Raster → Raster
  | [], _, d => d
  | b :: bs, py, d => drawRows x0 bs (py + 1) (drawCols b x0 py 8 0 d)

/-- 00E0 CLS (44_display.md R240). -/
def execCls (s : State) : Host.Outcome State Fault Refusal :=
  .next ((s.setPix Screen.blank).setDirty true)

/-- Dxyn DRW Vx, Vy, n (44_display.md R241 to R250): the origin from the old registers, all n bytes checked and
read, then the raster; VF is the collision flag and DIRTY is raised. -/
def execDrw (x y : RegIdx) (n : Count) (s : State) : Host.Outcome State Fault Refusal :=
  match s.mem.readRange (s.effAddr 0) n.toNat with
  | .error e => .next (s.raise .memOob (.drw x y n) (infoOfAddr e))
  | .ok bs =>
    let d := drawRows (originX (s.getV x)) bs (originY (s.getV y)) { screen := s.pix, hit := false }
    .next (((s.setPix d.screen).setV VF (boolByte d.hit)).setDirty true)

end Sys2Proof.Machine
end

