-- ==== Sys2Proof/Machine/IndexMem.lean ====
section
/-! DEFINITION. The index register and memory transfer: Annn, Fx1E, Fx29, Fx33, Fx55, Fx65 (43_index_memory.md). -/

namespace Sys2Proof.Machine

/-- The bytes bs stored at I, I + 1, ...; MEM_OOB raised by instruction i when an address is above 0xFFF, with
nothing written (20_memory.md R54). -/
def storeAtI (i : Instr) (bs : List Byte) (s : State) : Host.Outcome State Fault Refusal :=
  match s.mem.writeRange (s.effAddr 0) bs with
  | .error e => .next (s.raise .memOob i (infoOfAddr e))
  | .ok m => .next (s.setMem m)

/-- Annn LD I, nnn (43_index_memory.md R210). -/
def execLdI (nnn : Addr12) (s : State) : Host.Outcome State Fault Refusal :=
  .next (s.setI (zextAddr nnn))

/-- Fx1E ADD I, Vx (43_index_memory.md R211). VF is not written. -/
def execAddIVx (x : RegIdx) (s : State) : Host.Outcome State Fault Refusal :=
  .next (s.setI (indexPlus s x))

/-- Fx29 LD F, Vx (43_index_memory.md R212). -/
def execLdFVx (x : RegIdx) (s : State) : Host.Outcome State Fault Refusal :=
  .next (s.setI (glyphAddr (s.getV x)))

/-- Fx33 LD B, Vx (43_index_memory.md R213). I is not changed. -/
def execLdBVx (x : RegIdx) (s : State) : Host.Outcome State Fault Refusal :=
  storeAtI (.ldBVx x) (bcdDigits (s.getV x)) s

/-- Fx55 LD [I], Vx (43_index_memory.md R214). I is not changed. -/
def execStoreV (x : RegIdx) (s : State) : Host.Outcome State Fault Refusal :=
  storeAtI (.storeV x) (s.regRange x) s

/-- Fx65 LD Vx, [I] (43_index_memory.md R215). I is not changed. -/
def execLoadV (x : RegIdx) (s : State) : Host.Outcome State Fault Refusal :=
  match s.mem.readRange (s.effAddr 0) (x.toNat + 1) with
  | .error e => .next (s.raise .memOob (.loadV x) (infoOfAddr e))
  | .ok bs => .next (s.setRegs (loadRegs s.v 0 bs))

end Sys2Proof.Machine
end

