-- ==== Sys2Proof/Machine/KeysTimers.lean ====
section
/-! DEFINITION. Keypad tests, key-wait and timers: Ex9E, ExA1, Fx07, Fx0A, Fx15, Fx18 (45_timers_keys.md). -/

namespace Sys2Proof.Machine

/-- A skip on key V[x] being as want says; KEY_RANGE raised by instruction i when V[x] is above 15
(45_timers_keys.md R270, R271). -/
def skipOnKey (i : Instr) (want : Bool) (x : RegIdx) (s : State) : Host.Outcome State Fault Refusal :=
  match s.keyAt (s.getV x) with
  | none => .next (s.raise .keyRange i ((s.getV x).setWidth 16))
  | some k => .next (s.skipIf (k == want))

/-- Ex9E SKP Vx (45_timers_keys.md R270). -/
def execSkp (x : RegIdx) (s : State) : Host.Outcome State Fault Refusal :=
  skipOnKey (.skp x) true x s

/-- ExA1 SKNP Vx (45_timers_keys.md R271). -/
def execSknp (x : RegIdx) (s : State) : Host.Outcome State Fault Refusal :=
  skipOnKey (.sknp x) false x s

/-- Fx07 LD Vx, DT (45_timers_keys.md R272): the value before this cycle's tick. -/
def execLdVxDT (x : RegIdx) (s : State) : Host.Outcome State Fault Refusal :=
  .next (s.setV x s.dt)

/-- Fx0A LD Vx, K (45_timers_keys.md R273): the lowest pressed key, or back to this instruction with AWAIT set
(stalled <- 1; 40_cycle.md R110). -/
def execLdVxK (x : RegIdx) (s : State) : Host.Outcome State Fault Refusal :=
  match s.firstPressed with
  | some k => .next (s.setV x (BitVec.ofNat 8 k))
  | none => .next (s.stepBack.setAwait true)

/-- Fx15 LD DT, Vx (45_timers_keys.md R274); the cycle's tick follows. -/
def execLdDTVx (x : RegIdx) (s : State) : Host.Outcome State Fault Refusal :=
  .next (s.setDT (s.getV x))

/-- Fx18 LD ST, Vx (45_timers_keys.md R275); the cycle's tick follows. -/
def execLdSTVx (x : RegIdx) (s : State) : Host.Outcome State Fault Refusal :=
  .next (s.setST (s.getV x))

end Sys2Proof.Machine
end

