-- ==== Sys2Proof/Machine/Cycle.lean ====
section
/-! DEFINITION. The cycle as one function (40_cycle.md R118). -/

namespace Sys2Proof.Machine

/-- The end of a cycle applied to what the execute step answered. -/
def endOutcome : Host.Outcome State Fault Refusal → Host.Outcome State Fault Refusal
  | .next t => .next t.endCycle
  | .fault f => .fault f
  | .refused r => .refused r

/-- The execute step of a fetched word: the instruction it decodes to, or the no-op of an unmapped word
(40_cycle.md R105, R108). -/
def execWord (w : Word) (s : State) : Host.Outcome State Fault Refusal :=
  match decode w with
  | .instr i => exec i s
  | .unmapped _ => .next s

/-- Cycle(S, rnd) (40_cycle.md R118): a halted core does nothing; a fetch out of range faults with FWORD 0x0000;
otherwise advance, execute, tick. -/
def cycle (s : State) : Host.Outcome State Fault Refusal :=
  if s.halted then .next s
  else
    match s.fetch with
    | .error f => .next (s.enterFault .fetchOob s.pc 0x0000#16 f)
    | .ok w => endOutcome (execWord w s.beginCycle)

end Sys2Proof.Machine
end

