-- ==== Sys2Proof/Machine/Step.lean ====
section
/-! DEFINITION. One step of the machine is one cycle (40_cycle.md R100). -/

namespace Sys2Proof.Machine

/-- Step(rnd) of 40_cycle.md R111: one cycle, with the random byte a free value of Config (log entry 1). -/
def step (s : State) : Host.Outcome State Fault Refusal := cycle s

/-- s with the instruction of nbits bits w stored, big-endian, where step fetches its next instruction. -/
def State.withFetchWord (s : State) (nbits w : Nat) : State := s.placeWord (tableWord nbits w)

end Sys2Proof.Machine
end

