-- ==== Sys2Proof/Machine/HostOps.lean ====
section
/-! DEFINITION. The operations the host performs on the core between cycles (40_cycle.md R111 to R117, 70_reset_and_hazards.md R330 to R335). -/

namespace Sys2Proof.Machine

/-- Why a host operation is refused. -/
inductive HostError where
  /-- Load of more than 3584 bytes (70_reset_and_hazards.md R333). -/
  | capacity
  /-- Restore of a state that violates 10_state.md R37 (40_cycle.md R115). -/
  | inconsistentState
  /-- A step the model refuses; no instruction is one. -/
  | stepRefused (r : Refusal)
  deriving DecidableEq, Repr

/-- The state after the Initializer (70_reset_and_hazards.md R330) for a given FONT (00_scope.md R7): all 80 bytes from
0x50 on are FONT's, and every other element is as in State.reset, which is this state for the default FONT. -/
def State.initial (font : Config.Font) : State :=
  State.reset.setMem (Memory.putBytes [] Config.fontBase font.toList)

/-- Init (70_reset_and_hazards.md R330), with FONT an argument: every element of the state at its value after the
Initializer. The model's count of draws goes on, so that the random bytes after an Init are not those before it (log
entry 1). -/
def hostInit (font : Config.Font) (s : State) : State := (State.initial font).setDraws s.draws

/-- Load(bytes) (70_reset_and_hazards.md R333): the state after it, and the capacity error where it is refused, with
the state unchanged. It is part of the launch only (R334). -/
def hostLoad (rom : List Byte) (s : State) : State × Option HostError :=
  if Config.romMax < rom.length then (s, some .capacity)
  else (s.setMem (s.mem.putBytes Config.entry rom), none)

/-- SetKeypad(k) (40_cycle.md R112). -/
def hostSetKeypad (k : Vector Bool 16) (s : State) : State := s.setKey k

/-- ClearDirty() (40_cycle.md R113). -/
def hostClearDirty (s : State) : State := s.setDirty false

/-- What Observe() gives the host (40_cycle.md R114). -/
structure Observation where
  pix : Screen
  dirty : Bool
  sound : Bool
  await : Bool
  halted : Bool
  /-- The code of CAUSE (60_exceptions.md R301). -/
  faultCause : BitVec 3
  faultPc : Word
  faultWord : Word
  faultInfo : Word
  deriving DecidableEq, Repr

/-- Observe() (40_cycle.md R114): it changes no state; SOUND is ST ≠ 0 (60_exceptions.md R311). -/
def hostObserve (s : State) : Observation where
  pix := s.pix
  dirty := s.dirty
  sound := decide (s.st ≠ 0x00#8)
  await := s.await
  halted := s.halted
  faultCause := s.fault.cause.code
  faultPc := s.fault.fpc
  faultWord := s.fault.fword
  faultInfo := s.fault.finfo

/-- A pixel as the host reads it: a word of PIXEL_WORD bits, all set when on and all clear when off
(40_cycle.md R114; PIXEL_WORD is an argument, 00_scope.md R7). -/
def presentPixel (pixelWord : Nat) (on : Bool) : BitVec pixelWord :=
  if on then BitVec.allOnes pixelWord else 0#pixelWord

/-- The word at PC is an Fx0A (10_state.md R37). -/
def State.atKeyWait (s : State) : Bool :=
  match s.fetch with
  | .error _ => false
  | .ok w =>
    match decode w with
    | .instr (.ldVxK _) => true
    | _ => false

/-- 10_state.md R37, the clauses that the types of State do not already give: AWAIT = 1 implies CAUSE = 0 and an
Fx0A at PC. With it the canonical form of the model's memory list, without which a list stands for no memory. -/
def State.consistent (s : State) : Bool :=
  s.mem.wf && (!s.await || (!s.halted && s.atKeyWait))

/-- Snapshot() (40_cycle.md R115). -/
def hostSnapshot (s : State) : State := s

/-- Restore(S) (40_cycle.md R115): the whole state replaced; refused, with the state unchanged, for a state that
violates R37. The model's count of draws is not part of the snapshot's state and goes on (log entry 1). -/
def hostRestore (snap s : State) : State × Option HostError :=
  if snap.consistent then (snap.setDraws s.draws, none) else (s, some .inconsistentState)

/-- One move of the host between cycles (40_cycle.md R111). Load is joined to Init, since it is part of the launch
only (70_reset_and_hazards.md R334). Observe and Snapshot change nothing. -/
inductive HostOp where
  | init
  | boot (rom : List Byte)
  | setKeypad (k : Vector Bool 16)
  | step
  | clearDirty
  | restore (snap : State)
  deriving DecidableEq, Repr

/-- A move applied on a machine with the given FONT: the state after it, and the error where it is refused. A refused
boot leaves what Init left (log entry 7); every other refused move leaves the state it found. -/
def hostOp (font : Config.Font) : HostOp → State → State × Option HostError
  | .init, s => (hostInit font s, none)
  | .boot rom, s => hostLoad rom (hostInit font s)
  | .setKeypad k, s => (hostSetKeypad k s, none)
  | .step, s =>
    match step s with
    | .next t => (t, none)
    | .fault f => nomatch f
    | .refused r => (s, some (.stepRefused r))
  | .clearDirty, s => (hostClearDirty s, none)
  | .restore snap, s => hostRestore snap s

end Sys2Proof.Machine
end

