-- ==== Sys2Proof/Safety.lean ====
section
/-! DEFINITION. The terms the claims use: what a step may change (frames), the invariant, the states a host can reach, and the sprite a draw covers. -/

namespace Sys2Proof.Machine

/-- The elements of the state, for frames. -/
inductive Part where
  | mem | v | i | pc | sp | stack | dt | st | key | pix | dirty | await | fault | draws
  deriving DecidableEq, Repr

/-- The element p has the same value in s and t. Memory, registers and pixels are compared by what is read. -/
def Part.same (s t : State) : Part → Prop
  | .mem => ∀ a, t.mem.byteAt a = s.mem.byteAt a
  | .v => ∀ r, t.getV r = s.getV r
  | .i => t.i = s.i
  | .pc => t.pc = s.pc
  | .sp => t.sp = s.sp
  | .stack => ∀ k (h : k < 16), t.stack[k] = s.stack[k]
  | .dt => t.dt = s.dt
  | .st => t.st = s.st
  | .key => t.key = s.key
  | .pix => ∀ px py, t.pix.isOn px py = s.pix.isOn px py
  | .dirty => t.dirty = s.dirty
  | .await => t.await = s.await
  | .fault => t.fault = s.fault
  | .draws => t.draws = s.draws

/-- Every element outside ps is unchanged from s to t (40_cycle.md R106). -/
def Frame (ps : List Part) (s t : State) : Prop := ∀ p, p ∉ ps → Part.same s t p

end Sys2Proof.Machine

namespace Sys2Proof

/-- What the rule of an instruction writes in the execute step of a cycle that completes (40_cycle.md R106). The
model's count of draws stands with Cxkk. -/
def Instr.writes : Instr → List Machine.Part
  | .cls => [.pix, .dirty]
  | .ret => [.pc, .sp]
  | .jp _ => [.pc]
  | .call _ => [.pc, .sp, .stack]
  | .seImm _ _ => [.pc]
  | .sneImm _ _ => [.pc]
  | .seReg _ _ => [.pc]
  | .ldImm _ _ => [.v]
  | .addImm _ _ => [.v]
  | .ldReg _ _ => [.v]
  | .orReg _ _ => [.v]
  | .andReg _ _ => [.v]
  | .xorReg _ _ => [.v]
  | .addReg _ _ => [.v]
  | .subReg _ _ => [.v]
  | .shr _ _ => [.v]
  | .subnReg _ _ => [.v]
  | .shl _ _ => [.v]
  | .sneReg _ _ => [.pc]
  | .ldI _ => [.i]
  | .jpV0 _ => [.pc]
  | .rnd _ _ => [.v, .draws]
  | .drw _ _ _ => [.v, .pix, .dirty]
  | .skp _ => [.pc]
  | .sknp _ => [.pc]
  | .ldVxDT _ => [.v]
  | .ldVxK _ => [.v, .pc, .await]
  | .ldDTVx _ => [.dt]
  | .ldSTVx _ => [.st]
  | .addIVx _ => [.i]
  | .ldFVx _ => [.i]
  | .ldBVx _ => [.mem]
  | .storeV _ => [.mem]
  | .loadV _ => [.v]

/-- Whether an instruction writes general register r: the "writes" column of 10_state.md R23. -/
def Instr.writesReg (r : RegIdx) : Instr → Bool
  | .ldImm x _ => decide (r = x)
  | .addImm x _ => decide (r = x)
  | .ldReg x _ => decide (r = x)
  | .orReg x _ => decide (r = x)
  | .andReg x _ => decide (r = x)
  | .xorReg x _ => decide (r = x)
  | .addReg x _ => decide (r = x) || decide (r = VF)
  | .subReg x _ => decide (r = x) || decide (r = VF)
  | .shr x _ => decide (r = x) || decide (r = VF)
  | .subnReg x _ => decide (r = x) || decide (r = VF)
  | .shl x _ => decide (r = x) || decide (r = VF)
  | .rnd x _ => decide (r = x)
  | .drw _ _ _ => decide (r = VF)
  | .ldVxDT x => decide (r = x)
  | .ldVxK x => decide (r = x)
  | .loadV x => decide (r.toNat ≤ x.toNat)
  | .cls | .ret | .jp _ | .call _ | .seImm _ _ | .sneImm _ _ | .seReg _ _ | .sneReg _ _ | .ldI _ | .jpV0 _
  | .skp _ | .sknp _ | .ldDTVx _ | .ldSTVx _ | .addIVx _ | .ldFVx _ | .ldBVx _ | .storeV _ => false

end Sys2Proof

namespace Sys2Proof.Machine

/-- The invariant of 10_state.md R37 with the canonical form of memory. -/
def State.Inv (s : State) : Prop := s.consistent = true

/-- The states a host reaches on a machine with the given FONT: the state after the Initializer, then any moves of
HostOp (40_cycle.md R111). No move loads into a running machine (log entry 7). -/
inductive Reachable (font : Config.Font) : State → Prop where
  | initial : Reachable font (State.initial font)
  | move (s : State) (op : HostOp) : Reachable font s → Reachable font (hostOp font op s).1

/-- The word at PC, where both its bytes exist (20_memory.md R55). -/
def State.wordAtPc (s : State) : Word := s.mem.byteAt s.pc.toNat ++ s.mem.byteAt (s.pc.toNat + 1)

/-- A cycle that fetches: the core is not halted and both bytes of the word at PC exist (40_cycle.md R101, R102). -/
def State.fetches (s : State) : Prop := s.halted = false ∧ s.pc.toNat + 1 ≤ 0xFFF

/-- s as the execute step sees it: PC advanced by 2 and AWAIT holding "not stalled" (40_cycle.md R118). -/
def State.advanced (s : State) : State := { s with pc := s.pc + 2#16, await := false }

/-- What a fault leaves where the execute step ran on s (60_exceptions.md R302): the state before the cycle, that is
PC back by the 2 of the advance, with FAULT written and AWAIT cleared. -/
def State.faultedWith (s : State) (c : Cause) (fword finfo : Word) : State :=
  { s with pc := s.pc - 2#16
           await := false
           fault := { cause := c, fpc := s.pc - 2#16, fword := fword, finfo := finfo } }

/-- s with both timers ticked (40_cycle.md R107). -/
def State.ticked (s : State) : State :=
  { s with dt := if s.dt.toNat > 0 then s.dt - 1 else s.dt
           st := if s.st.toNat > 0 then s.st - 1 else s.st }

/-- Some sprite bit of Dxyn, set in memory, falls on (px, py): row py - y0 and column px - x0 of the sprite of n rows
at I, bit 7 being column 0 (44_display.md R242, R244, R245). -/
def spriteCovers (s : State) (x y : RegIdx) (n : Count) (px py : Nat) : Bool :=
  decide ((s.getV x).toNat % 64 ≤ px) && decide (px < (s.getV x).toNat % 64 + 8) &&
  decide ((s.getV y).toNat % 32 ≤ py) && decide (py < (s.getV y).toNat % 32 + n.toNat) &&
  (s.mem.byteAt (s.i.toNat + (py - (s.getV y).toNat % 32))).getLsbD (7 - (px - (s.getV x).toNat % 64))

end Sys2Proof.Machine
end

