-- ==== Sys2Proof/Certificates/Slice0/Obligations.lean ====
section
/-! DEFINITION. The statements for the provers. The execute step is stated on the state whose PC is already advanced (00_scope.md R11); the statements about step join it to the cycle. -/

open Sys2Proof Sys2Proof.Machine

/-! ### Encoding -/

/-- A few words written out from the patterns of 30_encoding.md R76, one or more of each format, and words that miss
a fixed digit (R77). -/
def Obligations.SpecWordsDecode : Prop :=
  decode 0x00E0#16 = .instr .cls ∧ decode 0x00EE#16 = .instr .ret ∧ decode 0x2210#16 = .instr (.call 0x210#12) ∧
  decode 0x3A07#16 = .instr (.seImm 0xA#4 0x07#8) ∧ decode 0x81F5#16 = .instr (.subReg 0x1#4 0xF#4) ∧
  decode 0x9340#16 = .instr (.sneReg 0x3#4 0x4#4) ∧ decode 0xA22A#16 = .instr (.ldI 0x22A#12) ∧
  decode 0xD01F#16 = .instr (.drw 0x0#4 0x1#4 0xF#4) ∧ decode 0xE19E#16 = .instr (.skp 0x1#4) ∧
  decode 0xF365#16 = .instr (.loadV 0x3#4) ∧ decode 0x5121#16 = .unmapped 0x5121#16 ∧
  decode 0x0123#16 = .unmapped 0x0123#16 ∧ decode 0x812F#16 = .unmapped 0x812F#16 ∧
  decode 0xF10B#16 = .unmapped 0xF10B#16

/-- Decoding an encoded instruction gives it back, and an instruction decoded from a word encodes to that word: no
bit of an encoding is dropped (30_encoding.md R71 to R76). -/
def Obligations.DecodeAndEncodeAgree : Prop :=
  (∀ i : Instr, decode (encode i) = .instr i) ∧ (∀ (w : Word) (i : Instr), decode w = .instr i → encode i = w)

/-- The decoder against the rows of the opcode table: 34 rows, no two of which match one word; a decoded word
matches its instruction's row; a word is unmapped exactly when no row matches it (30_encoding.md R75, R77; that the
rows are disjoint is the spec's own derivation). -/
def Obligations.DecodeMatchesOneTableRow : Prop :=
  opcodeRows.length = 34 ∧
  (∀ (w : Word) (r₁ r₂ : PatternRow), r₁ ∈ opcodeRows → r₂ ∈ opcodeRows → r₁.accepts w = true → r₂.accepts w = true →
    r₁ = r₂) ∧
  (∀ (w : Word) (i : Instr), decode w = .instr i → i.row ∈ opcodeRows ∧ i.row.accepts w = true) ∧
  (∀ w : Word, decode w = .unmapped w ↔ ∀ r ∈ opcodeRows, r.accepts w = false)

/-- The unmapped space, by the ranges of 30_encoding.md R78 (a derivation of the spec's own; the counts of its table
are not stated here). -/
def Obligations.UnmappedSpace : Prop :=
  ∀ w : Word, decode w = .unmapped w ↔
    ((w.toNat < 0x1000 ∧ w.toNat ≠ 0x00E0 ∧ w.toNat ≠ 0x00EE) ∨
     (w.toNat / 0x1000 = 0x5 ∧ w.toNat % 16 ≠ 0) ∨
     (w.toNat / 0x1000 = 0x8 ∧ 7 < w.toNat % 16 ∧ w.toNat % 16 ≠ 0xE) ∨
     (w.toNat / 0x1000 = 0x9 ∧ w.toNat % 16 ≠ 0) ∨
     (w.toNat / 0x1000 = 0xE ∧ w.toNat % 256 ≠ 0x9E ∧ w.toNat % 256 ≠ 0xA1) ∨
     (w.toNat / 0x1000 = 0xF ∧ w.toNat % 256 ∉ [0x07, 0x0A, 0x15, 0x18, 0x1E, 0x29, 0x33, 0x55, 0x65]))

/-! ### The cycle -/

/-- When the core is not halted and the bytes at PC decode to i, step is exec of i on the state with PC advanced and
AWAIT cleared, followed by the timer tick unless the instruction faulted (40_cycle.md R103 to R107, R118). -/
def Obligations.StepRunsDecodedInstruction : Prop :=
  ∀ (s : State) (i : Instr), s.fault.cause = .none → s.pc.toNat + 1 ≤ 0xFFF →
    decode (s.mem.byteAt s.pc.toNat ++ s.mem.byteAt (s.pc.toNat + 1)) = .instr i →
    ∃ t, exec i { s with pc := s.pc + 2#16, await := false } = .next t ∧
      (t.fault.cause = .none → step s = .next { t with
        dt := if t.dt.toNat > 0 then t.dt - 1 else t.dt
        st := if t.st.toNat > 0 then t.st - 1 else t.st }) ∧
      (t.fault.cause ≠ .none → step s = .next t)

/-- A halted core: a step changes nothing, and only Init (alone or before a Load) and the Restore of a state whose
CAUSE is 0 lead out, whatever the FONT (40_cycle.md R101). -/
def Obligations.HaltedUntilInitOrRestore : Prop :=
  (∀ s : State, s.fault.cause ≠ .none → step s = .next s) ∧
  ∀ font : Config.Font,
    (∀ (s : State) (op : HostOp), s.fault.cause ≠ .none → (hostOp font op s).1.fault.cause = .none →
      op = .init ∨ (∃ rom, op = .boot rom) ∨ ∃ u, op = .restore u ∧ u.fault.cause = .none) ∧
    (∀ s : State, (hostOp font .init s).1.fault.cause = .none) ∧
    (∀ s u : State, u.fault.cause = .none → u.consistent = true → (hostOp font (.restore u) s).1.fault.cause = .none)

/-- The fetch: the word is 256 times the byte at PC plus the byte at PC + 1; where PC + 1 is above 0xFFF the cycle
raises FETCH_OOB with FWORD 0x0000 and FINFO the first address above 0xFFF (40_cycle.md R102). -/
def Obligations.FetchIsBigEndianOrFaults : Prop :=
  ∀ s : State,
    (s.pc.toNat + 1 ≤ 0xFFF → ∃ w, s.fetch = .ok w ∧
      w.toNat = (s.mem.byteAt s.pc.toNat).toNat * 256 + (s.mem.byteAt (s.pc.toNat + 1)).toNat) ∧
    (s.fault.cause = .none → 0xFFF < s.pc.toNat + 1 → step s = .next { s with
      await := false
      fault := { cause := .fetchOob, fpc := s.pc, fword := 0x0000#16,
                 finfo := if 0xFFF < s.pc.toNat then s.pc else 0x1000#16 } })

/-- An unmapped word is a no-op: PC advances by 2, the timers tick, AWAIT is cleared as in every completed cycle, and
nothing else changes (40_cycle.md R108). -/
def Obligations.UnmappedWordIsNoOp : Prop :=
  ∀ s : State, s.fetches → (∀ i, decode s.wordAtPc ≠ .instr i) →
    ∃ t, step s = .next t ∧ t.pc = s.pc + 2#16 ∧ t.await = false ∧ t.dt.toNat = s.dt.toNat - 1 ∧
      t.st.toNat = s.st.toNat - 1 ∧ Frame [.pc, .await, .dt, .st] s t

/-- A cycle that faults commits nothing: the state after it is the state before it with only FAULT written and AWAIT
cleared; FPC is the PC of the cycle and FWORD the fetched word (40_cycle.md R109, 60_exceptions.md R304). -/
def Obligations.FaultingCycleCommitsNothing : Prop :=
  ∀ s t : State, s.fault.cause = .none → step s = .next t → t.fault.cause ≠ .none →
    t = { s with await := false, fault := t.fault } ∧ t.fault.fpc = s.pc ∧
    (t.fault.cause = .fetchOob → t.fault.fword = 0x0000#16) ∧
    (t.fault.cause ≠ .fetchOob → t.fault.fword = s.wordAtPc) ∧
    step t = .next t

/-- The fault causes: their codes (6 and 7 unused); in a cycle of a core that is not halted, each cause is recorded
exactly when its condition holds, with its FINFO; otherwise FAULT keeps what it was, which after the Initializer is
CAUSE 0 with FINFO 0 (60_exceptions.md R301). -/
def Obligations.FaultCausesAndInfo : Prop :=
  [Cause.none, .fetchOob, .memOob, .stackOverflow, .stackUnderflow, .keyRange].map Cause.code =
    [0#3, 1#3, 2#3, 3#3, 4#3, 5#3] ∧
  (∀ c : Cause, c.code.toNat < 6) ∧
  (∀ font s, (hostInit font s).fault.cause = .none ∧ (hostInit font s).fault.finfo.toNat = 0) ∧
  ∀ s t : State, s.fault.cause = .none → step s = .next t →
    (t.fault.cause = .none → t.fault = s.fault) ∧
    (t.fault.cause = .fetchOob ↔ 0xFFF < s.pc.toNat + 1) ∧
    (t.fault.cause = .fetchOob → t.fault.finfo.toNat = (if 0xFFF < s.pc.toNat then s.pc.toNat else 0x1000)) ∧
    (t.fault.cause = .memOob ↔ s.fetches ∧ ∃ n : Nat, 0 < n ∧ 0xFFF < s.i.toNat + (n - 1) ∧
      ((∃ x y k, decode s.wordAtPc = .instr (.drw x y k) ∧ n = k.toNat) ∨
       (∃ x, decode s.wordAtPc = .instr (.ldBVx x) ∧ n = 3) ∨
       (∃ x, decode s.wordAtPc = .instr (.storeV x) ∧ n = x.toNat + 1) ∨
       (∃ x, decode s.wordAtPc = .instr (.loadV x) ∧ n = x.toNat + 1))) ∧
    (t.fault.cause = .memOob → t.fault.finfo.toNat = (if 0xFFF < s.i.toNat then s.i.toNat else 0x1000)) ∧
    (t.fault.cause = .stackOverflow ↔ s.fetches ∧ (∃ nnn, decode s.wordAtPc = .instr (.call nnn)) ∧ s.sp.val = 16) ∧
    (t.fault.cause = .stackOverflow → t.fault.finfo.toNat = 16) ∧
    (t.fault.cause = .stackUnderflow ↔ s.fetches ∧ decode s.wordAtPc = .instr .ret ∧ s.sp.val = 0) ∧
    (t.fault.cause = .stackUnderflow → t.fault.finfo.toNat = 0) ∧
    (t.fault.cause = .keyRange ↔ s.fetches ∧ ∃ x,
      (decode s.wordAtPc = .instr (.skp x) ∨ decode s.wordAtPc = .instr (.sknp x)) ∧ 15 < (s.getV x).toNat) ∧
    (∀ x, t.fault.cause = .keyRange →
      (decode s.wordAtPc = .instr (.skp x) ∨ decode s.wordAtPc = .instr (.sknp x)) →
      t.fault.finfo.toNat = (s.getV x).toNat)

/-- The timer tick: in a cycle that completes, DT and ST end one below what the opcode effect left, and never below 0:
one below the old value, or one below V[x] after Fx15 and Fx18. A faulting or halted cycle does not tick
(40_cycle.md R107). -/
def Obligations.TimersTickInCompletedCycles : Prop :=
  ∀ s t : State, step s = .next t →
    (s.fault.cause ≠ .none ∨ t.fault.cause ≠ .none → t.dt = s.dt ∧ t.st = s.st) ∧
    (s.fault.cause = .none → t.fault.cause = .none →
      (∀ x, decode s.wordAtPc = .instr (.ldDTVx x) → t.dt.toNat = (s.getV x).toNat - 1) ∧
      ((∀ x, decode s.wordAtPc ≠ .instr (.ldDTVx x)) → t.dt.toNat = s.dt.toNat - 1) ∧
      (∀ x, decode s.wordAtPc = .instr (.ldSTVx x) → t.st.toNat = (s.getV x).toNat - 1) ∧
      ((∀ x, decode s.wordAtPc ≠ .instr (.ldSTVx x)) → t.st.toNat = s.st.toNat - 1))

/-- AWAIT after a cycle: 1 exactly when the cycle completed an Fx0A with no key pressed (40_cycle.md R110). -/
def Obligations.AwaitMarksStalledKeyWait : Prop :=
  ∀ s t : State, s.fault.cause = .none → step s = .next t →
    (t.await = true ↔ s.fetches ∧ (∃ x, decode s.wordAtPc = .instr (.ldVxK x)) ∧ ∀ k (h : k < 16), s.key[k] = false)

/-- The frame of every instruction: in an execute step that does not fault, an element its rule does not write keeps
its value, and so do every general register outside the writes column of 10_state.md R23, every byte of memory outside
the stored ones (I to I + 2 for Fx33, I to I + x for Fx55), every stack slot but slot SP of 2nnn, and every pixel
outside the sprite of Dxyn (40_cycle.md R106). -/
def Obligations.InstructionsWriteOnlyTheirRule : Prop :=
  ∀ (i : Instr) (s t : State), s.fault.cause = .none → exec i s = .next t → t.fault.cause = .none →
    Frame i.writes s t ∧ (∀ r, i.writesReg r = false → t.getV r = s.getV r) ∧
    (∀ a, ¬((∃ x, i = .ldBVx x ∧ s.i.toNat ≤ a ∧ a ≤ s.i.toNat + 2) ∨
            (∃ x, i = .storeV x ∧ s.i.toNat ≤ a ∧ a ≤ s.i.toNat + x.toNat)) → t.mem.byteAt a = s.mem.byteAt a) ∧
    (∀ k (h : k < 16), ¬((∃ nnn, i = .call nnn) ∧ k = s.sp.val) → t.stack[k] = s.stack[k]) ∧
    (∀ px py, ¬(i = .cls ∨ ∃ x y n, i = .drw x y n ∧ spriteCovers s x y n px py = true) →
      t.pix.isOn px py = s.pix.isOn px py)

/-- No instruction and no cycle stops the model: every execute step and every step answers a next state; there is no
illegal-instruction trap and no fault without an entry (30_encoding.md R79, 60_exceptions.md R300, R302). -/
def Obligations.EveryCycleAnswersNext : Prop :=
  (∀ (i : Instr) (s : State), ∃ t, exec i s = .next t) ∧ (∀ s : State, ∃ t, step s = .next t)

/-- I, memory, the screen, DIRTY, the stack and the keypad across a whole step: I changes only by Annn, Fx1E or Fx29;
a byte of memory only by Fx33 or Fx55; a pixel only by 00E0 or Dxyn; DIRTY only upward and only by those two; SP only
by 2nnn or 00EE and a stack slot only by 2nnn; the keypad never (10_state.md R24, R27, R30, R31, R32; for memory
20_memory.md R50, R57 and 40_cycle.md R106). -/
def Obligations.StepChangesStateOnlyByName : Prop :=
  ∀ s t : State, step s = .next t →
    (t.i ≠ s.i → ∃ i, decode s.wordAtPc = .instr i ∧
      ((∃ nnn, i = .ldI nnn) ∨ (∃ x, i = .addIVx x) ∨ (∃ x, i = .ldFVx x))) ∧
    ((∃ a, t.mem.byteAt a ≠ s.mem.byteAt a) → ∃ i, decode s.wordAtPc = .instr i ∧
      ((∃ x, i = .ldBVx x) ∨ (∃ x, i = .storeV x))) ∧
    ((t.pix ≠ s.pix ∨ t.dirty ≠ s.dirty) → ∃ i, decode s.wordAtPc = .instr i ∧
      (i = .cls ∨ ∃ x y n, i = .drw x y n)) ∧
    (s.dirty = true → t.dirty = true) ∧
    (t.sp ≠ s.sp → ∃ i, decode s.wordAtPc = .instr i ∧ (i = .ret ∨ ∃ nnn, i = .call nnn)) ∧
    (t.stack ≠ s.stack → ∃ nnn, decode s.wordAtPc = .instr (.call nnn)) ∧
    t.key = s.key

/-- AWAIT is read by no rule: what it holds before a cycle does not change what a running core does
(10_state.md R33). -/
def Obligations.AwaitReadByNoCycle : Prop :=
  ∀ (s : State) (b : Bool), s.fault.cause = .none → step { s with await := b } = step s

/-- The random byte is read by Cxkk alone: a cycle of another word does the same whatever byte it is offered, the
model's count of draws (log entry 1) being the only place that says which (40_cycle.md R116). -/
def Obligations.RandomByteReadByRndAlone : Prop :=
  ∀ (s t : State) (n : Nat), ¬(s.fetches ∧ ∃ x kk, decode s.wordAtPc = .instr (.rnd x kk)) → step s = .next t →
    t.draws = s.draws ∧ step { s with draws := n } = .next { t with draws := n }

/-! ### Invariants -/

/-- The invariant holds after reset and after the Initializer with any FONT: memory in the model's canonical form (log
entries 5 and 12, no rule of the spec), and AWAIT = 1 only on a running core with an Fx0A at PC (10_state.md R37, the
spec's own derivation; the values are those of R38, with the default FONT of log entry 2 in State.reset). -/
def Obligations.InvariantAtReset : Prop :=
  State.reset.Inv ∧ ∀ font : Config.Font, (State.initial font).Inv

/-- Every step keeps the invariant: memory in the model's canonical form (log entries 5 and 12, no rule of the spec),
and AWAIT = 1 only on a running core with an Fx0A at PC (10_state.md R37, the spec's own derivation). -/
def Obligations.EveryStepKeepsInvariant : Prop :=
  ∀ s t : State, s.Inv → step s = .next t → t.Inv

/-- Every state that the moves of HostOp reach from the Initializer, with any FONT, satisfies 10_state.md R37 (the
spec's own derivation), and its memory is in the model's canonical form (log entries 5 and 12, no rule of the spec). The
moves hold no Load into a running machine (log entry 7). -/
def Obligations.ReachableStatesAreConsistent : Prop :=
  ∀ (font : Config.Font) (s : State), Reachable font s →
    s.mem.wf = true ∧ s.sp.val ≤ 16 ∧
    (s.await = true → s.fault.cause = .none ∧ s.pc.toNat + 1 ≤ 0xFFF ∧
      ∃ x, decode s.wordAtPc = .instr (.ldVxK x))

/-! ### Memory -/

/-- One byte read and written through the range check: above 0xFFF the access is refused with its address; otherwise
the byte read is MEM[a], and after the write MEM[a] is the byte and every other address reads as before (20_memory.md
R52, R53). The premise on memory, and the last clause that a write keeps it, are the model's canonical form (log entries
5 and 12, no rule of the spec). -/
def Obligations.MemoryByteAccess : Prop :=
  ∀ (m : Memory) (a : Nat) (b : Byte), m.wf = true →
    (0xFFF < a → m.readRange a 1 = .error a ∧ m.writeRange a [b] = .error a) ∧
    (a ≤ 0xFFF → m.readRange a 1 = .ok [m.byteAt a] ∧
      ∃ m', m.writeRange a [b] = .ok m' ∧ m'.wf = true ∧
        ∀ k, m'.byteAt k = if k = a then b else m.byteAt k)

/-- An access of several bytes checks every address, as an exact natural, before it touches any, and an error names the
first address out of range in ascending order (20_memory.md R54). -/
def Obligations.RangeCheckedBeforeAnyByte : Prop :=
  ∀ (m : Memory) (a : Nat) (bs : List Byte),
    ((∀ k < bs.length, a + k ≤ 0xFFF) →
      (∃ m', m.writeRange a bs = .ok m') ∧ ∃ cs, m.readRange a bs.length = .ok cs ∧ cs.length = bs.length ∧
        ∀ k < bs.length, cs[k]? = some (m.byteAt (a + k))) ∧
    (∀ k < bs.length, 0xFFF < a + k → (∀ j < k, a + j ≤ 0xFFF) →
      m.writeRange a bs = .error (a + k) ∧ m.readRange a bs.length = .error (a + k))

/-- A store is seen by a later fetch: where PC comes to a word within the bytes Fx55 stored, the word fetched is made
of the stored registers (20_memory.md R64, a derivation of the spec's own). The premise on memory is the model's
canonical form (log entry 5). -/
def Obligations.StoredBytesAreFetched : Prop :=
  ∀ (s t u : State) (x : RegIdx) (k : Nat), s.mem.wf = true → s.i.toNat + x.toNat ≤ 0xFFF →
    exec (.storeV x) s = .next t → u.mem = t.mem → u.pc.toNat = s.i.toNat + k → k + 1 ≤ x.toNat →
    u.fetch = .ok (s.getV (BitVec.ofNat 4 k) ++ s.getV (BitVec.ofNat 4 (k + 1)))

/-! ### The host -/

/-- The Initializer, with any FONT and from any state: every element at its value of 10_state.md R38, with FONT at 0x050
to 0x09F; run twice it gives what it gives once, and the state of R20 it gives does not depend on the one before
(70_reset_and_hazards.md R332). The model's count of draws, which goes on, is not of R20 (log entry 1). -/
def Obligations.InitializerValues : Prop :=
  ∀ font : Config.Font,
    (∀ s u : State, hostInit font (hostInit font s) = hostInit font s ∧
      { hostInit font s with draws := 0 } = { hostInit font u with draws := 0 }) ∧
    ∀ s : State, ∃ t, hostOp font .init s = (t, none) ∧
      (∀ a, a < 0x50 → t.mem.byteAt a = 0x00#8) ∧
      (∀ k (h : k < 80), t.mem.byteAt (0x50 + k) = font[k]) ∧
      (∀ a, 0xA0 ≤ a → a ≤ 0xFFF → t.mem.byteAt a = 0x00#8) ∧
      (∀ r, t.getV r = 0x00#8) ∧ t.i = 0x0000#16 ∧ t.pc = 0x0200#16 ∧ t.sp.val = 0 ∧
      (∀ k (h : k < 16), t.stack[k] = 0x0000#16) ∧ t.dt = 0x00#8 ∧ t.st = 0x00#8 ∧
      (∀ k (h : k < 16), t.key[k] = false) ∧ (∀ px py, t.pix.isOn px py = false) ∧
      t.dirty = false ∧ t.await = false ∧
      t.fault = { cause := .none, fpc := 0x0000#16, fword := 0x0000#16, finfo := 0x0000#16 }

/-- Load: more than 3584 bytes is a capacity error with the state unchanged; otherwise the bytes stand from 0x200 on and
nothing else changes (70_reset_and_hazards.md R333). The premise is the model's canonical form of memory (log
entry 5). -/
def Obligations.LoadCopiesRomOrRefuses : Prop :=
  ∀ (s : State) (rom : List Byte), s.mem.wf = true →
    (3584 < rom.length → hostLoad rom s = (s, some .capacity)) ∧
    (rom.length ≤ 3584 → ∃ t, hostLoad rom s = (t, none) ∧
      (∀ j, j < rom.length → some (t.mem.byteAt (0x200 + j)) = rom[j]?) ∧
      (∀ a, (a < 0x200 ∨ 0x200 + rom.length ≤ a) → t.mem.byteAt a = s.mem.byteAt a) ∧
      Frame [.mem] s t)

/-- Snapshot and Restore: restoring a state replaces the whole state of 10_state.md R20 by it, restoring the snapshot
just taken changes nothing, and a state with AWAIT = 1 but halted or with no Fx0A at PC, the one violation of R37 that
the types leave room for, is refused with the state unchanged (40_cycle.md R115). The premise is the model's canonical
form of memory (log entry 5). The count of draws is not of R20, and no clause rests on what Restore leaves it (log
entry 1). -/
def Obligations.RestoreReplacesWholeState : Prop :=
  ∀ (font : Config.Font) (u s : State), u.mem.wf = true →
    ((u.await = true → u.fault.cause = .none ∧ u.pc.toNat + 1 ≤ 0xFFF ∧ ∃ x, decode u.wordAtPc = .instr (.ldVxK x)) →
      (∃ t, hostOp font (.restore u) s = (t, none) ∧ { t with draws := u.draws } = u) ∧
      hostOp font (.restore (hostSnapshot u)) u = (u, none)) ∧
    (u.await = true →
      ¬(u.fault.cause = .none ∧ u.pc.toNat + 1 ≤ 0xFFF ∧ ∃ x, decode u.wordAtPc = .instr (.ldVxK x)) →
      hostOp font (.restore u) s = (s, some .inconsistentState))

/-- SetKeypad writes KEY and nothing else in any state, a cycle leaves KEY as the host wrote it, and ClearDirty writes
DIRTY and nothing else (40_cycle.md R112, R113). -/
def Obligations.HostWritesKeypadAndDirty : Prop :=
  (∀ (font : Config.Font) (s : State) (k : Vector Bool 16),
    ∃ t, hostOp font (.setKeypad k) s = (t, none) ∧ t.key = k ∧ Frame [.key] s t) ∧
  (∀ (s t : State), step s = .next t → t.key = s.key) ∧
  (∀ (font : Config.Font) (s : State),
    ∃ t, hostOp font .clearDirty s = (t, none) ∧ t.dirty = false ∧ Frame [.dirty] s t)

/-- Observe: PIX, DIRTY, AWAIT and FAULT as they are, SOUND exactly when ST is not 0, HALTED exactly when CAUSE is not
0, and a pixel as a word of all ones or all zeros (40_cycle.md R114, 60_exceptions.md R311). -/
def Obligations.ObserveReportsState : Prop :=
  (∀ s : State, (hostObserve s).pix = s.pix ∧ (hostObserve s).dirty = s.dirty ∧ (hostObserve s).await = s.await ∧
    ((hostObserve s).sound = true ↔ s.st.toNat ≠ 0) ∧ ((hostObserve s).halted = true ↔ s.fault.cause ≠ .none) ∧
    (hostObserve s).faultCause = s.fault.cause.code ∧ ((hostObserve s).faultCause = 0#3 ↔ s.fault.cause = .none) ∧
    (hostObserve s).faultPc = s.fault.fpc ∧ (hostObserve s).faultWord = s.fault.fword ∧
    (hostObserve s).faultInfo = s.fault.finfo) ∧
  (∀ (n k : Nat), k < n → (presentPixel n true).getLsbD k = true ∧ (presentPixel n false).getLsbD k = false)

/-! ### Control transfer -/

/-- 00EE: PC takes the top return address and SP falls by one, the slot kept; STACK_UNDERFLOW when SP = 0
(41_control_flow.md R141). -/
def Obligations.ReturnPopsStack : Prop :=
  decode 0x00EE#16 = .instr .ret ∧
  ∀ s : State,
    (0 < s.sp.val → ∃ t, exec .ret s = .next t ∧ t.sp.val = s.sp.val - 1 ∧ s.stack[s.sp.val - 1]? = some t.pc ∧
      Frame [.pc, .sp] s t) ∧
    (s.sp.val = 0 → exec .ret s = .next (s.faultedWith .stackUnderflow 0x00EE#16 0#16))

/-- 1nnn: PC becomes nnn (41_control_flow.md R142). -/
def Obligations.JumpSetsPc : Prop :=
  ∀ (s : State) (nnn : Addr12), decode (0x1#4 ++ nnn) = .instr (.jp nnn) ∧
    ∃ t, exec (.jp nnn) s = .next t ∧ t.pc.toNat = nnn.toNat ∧ Frame [.pc] s t

/-- 2nnn: the advanced PC is stored in slot SP, SP rises by one, PC becomes nnn, every other slot is kept;
STACK_OVERFLOW when SP = 16 (41_control_flow.md R143). -/
def Obligations.CallPushesReturnAddress : Prop :=
  ∀ (s : State) (nnn : Addr12), decode (0x2#4 ++ nnn) = .instr (.call nnn) ∧
    (s.sp.val < 16 → ∃ t, exec (.call nnn) s = .next t ∧ t.stack[s.sp.val]? = some s.pc ∧
      (∀ k, k ≠ s.sp.val → t.stack[k]? = s.stack[k]?) ∧ t.sp.val = s.sp.val + 1 ∧ t.pc.toNat = nnn.toNat ∧
      Frame [.pc, .sp, .stack] s t) ∧
    (s.sp.val = 16 → exec (.call nnn) s = .next (s.faultedWith .stackOverflow (0x2#4 ++ nnn) 16#16))

/-- A call and the return that meets its stack: PC and SP are back at the word after the call
(10_state.md R28, 41_control_flow.md R149). -/
def Obligations.ReturnUndoesCall : Prop :=
  ∀ (s t u : State) (nnn : Addr12), s.sp.val < 16 → exec (.call nnn) s = .next t → u.sp = t.sp → u.stack = t.stack →
    ∃ v, exec .ret u = .next v ∧ v.pc = s.pc ∧ v.sp = s.sp

/-- 3xkk and 4xkk: a further 2 on PC exactly when V[x] = kk, or exactly when V[x] ≠ kk
(41_control_flow.md R144, R145). -/
def Obligations.ImmediateSkips : Prop :=
  ∀ (s : State) (x : RegIdx) (kk : Byte),
    decode (0x3#4 ++ x ++ kk) = .instr (.seImm x kk) ∧ decode (0x4#4 ++ x ++ kk) = .instr (.sneImm x kk) ∧
    (∃ t, exec (.seImm x kk) s = .next t ∧ t.pc = (if s.getV x = kk then s.pc + 2#16 else s.pc) ∧ Frame [.pc] s t) ∧
    (∃ t, exec (.sneImm x kk) s = .next t ∧ t.pc = (if s.getV x = kk then s.pc else s.pc + 2#16) ∧ Frame [.pc] s t)

/-- 5xy0 and 9xy0: a further 2 on PC exactly when V[x] = V[y], or exactly when V[x] ≠ V[y]
(41_control_flow.md R146, R147). -/
def Obligations.RegisterSkips : Prop :=
  ∀ (s : State) (x y : RegIdx),
    decode (0x5#4 ++ x ++ y ++ 0x0#4) = .instr (.seReg x y) ∧ decode (0x9#4 ++ x ++ y ++ 0x0#4) = .instr (.sneReg x y) ∧
    (∃ t, exec (.seReg x y) s = .next t ∧ t.pc = (if s.getV x = s.getV y then s.pc + 2#16 else s.pc) ∧
      Frame [.pc] s t) ∧
    (∃ t, exec (.sneReg x y) s = .next t ∧ t.pc = (if s.getV x = s.getV y then s.pc else s.pc + 2#16) ∧
      Frame [.pc] s t)

/-- Bnnn: PC becomes nnn + V[0], not reduced to 12 bits (41_control_flow.md R148). -/
def Obligations.JumpAddsV0 : Prop :=
  ∀ (s : State) (nnn : Addr12), decode (0xB#4 ++ nnn) = .instr (.jpV0 nnn) ∧
    ∃ t, exec (.jpV0 nnn) s = .next t ∧ t.pc.toNat = nnn.toNat + (s.getV 0x0#4).toNat ∧ Frame [.pc] s t

/-! ### Register arithmetic and logic -/

/-- 6xkk, 7xkk and 8xy0: V[x] becomes kk, V[x] + kk mod 256, V[y]; every other register, VF included, is kept
(42_alu.md R172, R173, R174). -/
def Obligations.RegisterLoads : Prop :=
  ∀ (s : State) (x y : RegIdx) (kk : Byte),
    decode (0x6#4 ++ x ++ kk) = .instr (.ldImm x kk) ∧ decode (0x7#4 ++ x ++ kk) = .instr (.addImm x kk) ∧
    decode (0x8#4 ++ x ++ y ++ 0x0#4) = .instr (.ldReg x y) ∧
    (∃ t, exec (.ldImm x kk) s = .next t ∧ t.getV x = kk ∧ (∀ r, r ≠ x → t.getV r = s.getV r) ∧ Frame [.v] s t) ∧
    (∃ t, exec (.addImm x kk) s = .next t ∧ (t.getV x).toNat = ((s.getV x).toNat + kk.toNat) % 256 ∧
      (∀ r, r ≠ x → t.getV r = s.getV r) ∧ Frame [.v] s t) ∧
    (∃ t, exec (.ldReg x y) s = .next t ∧ t.getV x = s.getV y ∧ (∀ r, r ≠ x → t.getV r = s.getV r) ∧ Frame [.v] s t)

/-- 8xy1, 8xy2 and 8xy3: bitwise OR, AND and XOR of the old V[x] and V[y]; every other register, VF included, is kept
(42_alu.md R175, R176, R177). -/
def Obligations.RegisterLogic : Prop :=
  ∀ (s : State) (x y : RegIdx),
    decode (0x8#4 ++ x ++ y ++ 0x1#4) = .instr (.orReg x y) ∧ decode (0x8#4 ++ x ++ y ++ 0x2#4) = .instr (.andReg x y) ∧
    decode (0x8#4 ++ x ++ y ++ 0x3#4) = .instr (.xorReg x y) ∧
    (∃ t, exec (.orReg x y) s = .next t ∧
      (∀ k, (t.getV x).getLsbD k = ((s.getV x).getLsbD k || (s.getV y).getLsbD k)) ∧
      (∀ r, r ≠ x → t.getV r = s.getV r) ∧ Frame [.v] s t) ∧
    (∃ t, exec (.andReg x y) s = .next t ∧
      (∀ k, (t.getV x).getLsbD k = ((s.getV x).getLsbD k && (s.getV y).getLsbD k)) ∧
      (∀ r, r ≠ x → t.getV r = s.getV r) ∧ Frame [.v] s t) ∧
    (∃ t, exec (.xorReg x y) s = .next t ∧
      (∀ k, (t.getV x).getLsbD k = ((s.getV x).getLsbD k ^^ (s.getV y).getLsbD k)) ∧
      (∀ r, r ≠ x → t.getV r = s.getV r) ∧ Frame [.v] s t)

/-- 8xy4: V[x] becomes the sum mod 256, then VF is 1 exactly when the exact sum is above 255, so with x = 0xF the sum
is lost (42_alu.md R178). -/
def Obligations.AddSetsCarry : Prop :=
  ∀ (s : State) (x y : RegIdx), decode (0x8#4 ++ x ++ y ++ 0x4#4) = .instr (.addReg x y) ∧
    ∃ t, exec (.addReg x y) s = .next t ∧
      (x ≠ VF → (t.getV x).toNat = ((s.getV x).toNat + (s.getV y).toNat) % 256) ∧
      (t.getV VF).toNat = (if 255 < (s.getV x).toNat + (s.getV y).toNat then 1 else 0) ∧
      (∀ r, r ≠ x → r ≠ VF → t.getV r = s.getV r) ∧ Frame [.v] s t

/-- 8xy5: with f = 1 when V[x] > V[y] and else 0, VF becomes f first and V[x] then V[x] - V[y] mod 256 read after it:
the four cases of x and y being 0xF or not (42_alu.md R179). -/
def Obligations.SubtractSetsGreaterFlag : Prop :=
  ∀ (s : State) (x y : RegIdx), decode (0x8#4 ++ x ++ y ++ 0x5#4) = .instr (.subReg x y) ∧
    ∃ (t : State) (f : Nat), exec (.subReg x y) s = .next t ∧
      f = (if (s.getV y).toNat < (s.getV x).toNat then 1 else 0) ∧
      (x ≠ VF → (t.getV VF).toNat = f) ∧
      (x ≠ VF → y ≠ VF → (t.getV x).toNat = ((s.getV x).toNat + (256 - (s.getV y).toNat)) % 256) ∧
      (x ≠ VF → y = VF → (t.getV x).toNat = ((s.getV x).toNat + (256 - f)) % 256) ∧
      (x = VF → y ≠ VF → (t.getV VF).toNat = (f + (256 - (s.getV y).toNat)) % 256) ∧
      (x = VF → y = VF → (t.getV VF).toNat = 0) ∧
      (∀ r, r ≠ x → r ≠ VF → t.getV r = s.getV r) ∧ Frame [.v] s t

/-- 8xy7: with f = 1 when V[y] > V[x] and else 0, VF becomes f first and V[x] then V[y] - V[x] mod 256 read after it:
the four cases of x and y being 0xF or not (42_alu.md R181). -/
def Obligations.ReverseSubtractSetsGreaterFlag : Prop :=
  ∀ (s : State) (x y : RegIdx), decode (0x8#4 ++ x ++ y ++ 0x7#4) = .instr (.subnReg x y) ∧
    ∃ (t : State) (f : Nat), exec (.subnReg x y) s = .next t ∧
      f = (if (s.getV x).toNat < (s.getV y).toNat then 1 else 0) ∧
      (x ≠ VF → (t.getV VF).toNat = f) ∧
      (x ≠ VF → y ≠ VF → (t.getV x).toNat = ((s.getV y).toNat + (256 - (s.getV x).toNat)) % 256) ∧
      (x ≠ VF → y = VF → (t.getV x).toNat = (f + (256 - (s.getV x).toNat)) % 256) ∧
      (x = VF → y ≠ VF → (t.getV VF).toNat = ((s.getV y).toNat + (256 - f)) % 256) ∧
      (x = VF → y = VF → (t.getV VF).toNat = 0) ∧
      (∀ r, r ≠ x → r ≠ VF → t.getV r = s.getV r) ∧ Frame [.v] s t

/-- 8xy6 and 8xyE: VF becomes the bit shifted out, V[x] the shifted value read after that write; V[y] is not read
(42_alu.md R180, R182). -/
def Obligations.ShiftsSetShiftedOutBit : Prop :=
  ∀ (s : State) (x y : RegIdx),
    decode (0x8#4 ++ x ++ y ++ 0x6#4) = .instr (.shr x y) ∧ decode (0x8#4 ++ x ++ y ++ 0xE#4) = .instr (.shl x y) ∧
    (∃ t, exec (.shr x y) s = .next t ∧ (∀ y', exec (.shr x y') s = .next t) ∧
      (x ≠ VF → (t.getV x).toNat = (s.getV x).toNat / 2 ∧ (t.getV VF).toNat = (s.getV x).toNat % 2) ∧
      (x = VF → (t.getV VF).toNat = 0) ∧ (∀ r, r ≠ x → r ≠ VF → t.getV r = s.getV r) ∧ Frame [.v] s t) ∧
    (∃ t, exec (.shl x y) s = .next t ∧ (∀ y', exec (.shl x y') s = .next t) ∧
      (x ≠ VF → (t.getV x).toNat = (s.getV x).toNat * 2 % 256 ∧ (t.getV VF).toNat = (s.getV x).toNat / 128) ∧
      (x = VF → (t.getV VF).toNat = if 0x80 ≤ (s.getV VF).toNat then 2 else 0) ∧
      (∀ r, r ≠ x → r ≠ VF → t.getV r = s.getV r) ∧ Frame [.v] s t)

/-- Cxkk: V[x] becomes the offered byte AND kk, whatever byte is offered (42_alu.md R183). That the byte is
Config.rnd of the model's count of draws, and that the count then moves on, is the model's choice (log entry 1); the
clauses hold for every value of it. -/
def Obligations.RandomAndMask : Prop :=
  ∀ (s : State) (x : RegIdx) (kk : Byte), decode (0xC#4 ++ x ++ kk) = .instr (.rnd x kk) ∧
    (∃ t, exec (.rnd x kk) s = .next t ∧ t.getV x = Config.rnd s.draws &&& kk ∧ t.draws = s.draws + 1 ∧
      (∀ r, r ≠ x → t.getV r = s.getV r) ∧ Frame [.v, .draws] s t) ∧
    ∀ b : Byte, (rndEffect b x kk s).getV x = b &&& kk ∧ (∀ r, r ≠ x → (rndEffect b x kk s).getV r = s.getV r) ∧
      Frame [.v] s (rndEffect b x kk s)

/-! ### The index register and memory transfer -/

/-- Annn, Fx1E and Fx29: I becomes nnn, I + V[x] mod 2^16, 0x50 + 5 * V[x]; nothing else changes and none faults
(43_index_memory.md R210, R211, R212). -/
def Obligations.IndexRegisterWrites : Prop :=
  ∀ (s : State) (nnn : Addr12) (x : RegIdx),
    decode (0xA#4 ++ nnn) = .instr (.ldI nnn) ∧ decode (0xF#4 ++ x ++ 0x1E#8) = .instr (.addIVx x) ∧
    decode (0xF#4 ++ x ++ 0x29#8) = .instr (.ldFVx x) ∧
    (∃ t, exec (.ldI nnn) s = .next t ∧ t.i.toNat = nnn.toNat ∧ Frame [.i] s t) ∧
    (∃ t, exec (.addIVx x) s = .next t ∧ t.i.toNat = (s.i.toNat + (s.getV x).toNat) % 65536 ∧ Frame [.i] s t) ∧
    (∃ t, exec (.ldFVx x) s = .next t ∧ t.i.toNat = 0x50 + 5 * (s.getV x).toNat ∧ Frame [.i] s t)

/-- Fx33: the decimal digits of V[x] at I, I + 1, I + 2 and no other byte of memory changed; MEM_OOB with nothing
written when I + 2 is above 0xFFF (43_index_memory.md R213). The premise is the model's canonical form of memory
(log entry 5). -/
def Obligations.BcdStoresDigits : Prop :=
  ∀ (s : State) (x : RegIdx), s.mem.wf = true → decode (0xF#4 ++ x ++ 0x33#8) = .instr (.ldBVx x) ∧
    (s.i.toNat + 2 ≤ 0xFFF → ∃ t, exec (.ldBVx x) s = .next t ∧
      (t.mem.byteAt s.i.toNat).toNat = (s.getV x).toNat / 100 ∧
      (t.mem.byteAt (s.i.toNat + 1)).toNat = (s.getV x).toNat / 10 % 10 ∧
      (t.mem.byteAt (s.i.toNat + 2)).toNat = (s.getV x).toNat % 10 ∧
      (∀ a, (a < s.i.toNat ∨ s.i.toNat + 2 < a) → t.mem.byteAt a = s.mem.byteAt a) ∧ Frame [.mem] s t) ∧
    (0xFFF < s.i.toNat + 2 → exec (.ldBVx x) s =
      .next (s.faultedWith .memOob (0xF#4 ++ x ++ 0x33#8) (if 0xFFF < s.i.toNat then s.i else 0x1000#16)))

/-- Fx55: V[0] to V[x] at I to I + x and no other byte of memory changed; I is kept; MEM_OOB with nothing written when
I + x is above 0xFFF (43_index_memory.md R214). The premise is the model's canonical form of memory
(log entry 5). -/
def Obligations.StoreCopiesRegisters : Prop :=
  ∀ (s : State) (x : RegIdx), s.mem.wf = true → decode (0xF#4 ++ x ++ 0x55#8) = .instr (.storeV x) ∧
    (s.i.toNat + x.toNat ≤ 0xFFF → ∃ t, exec (.storeV x) s = .next t ∧
      (∀ k : RegIdx, k.toNat ≤ x.toNat → t.mem.byteAt (s.i.toNat + k.toNat) = s.getV k) ∧
      (∀ a, (a < s.i.toNat ∨ s.i.toNat + x.toNat < a) → t.mem.byteAt a = s.mem.byteAt a) ∧ Frame [.mem] s t) ∧
    (0xFFF < s.i.toNat + x.toNat → exec (.storeV x) s =
      .next (s.faultedWith .memOob (0xF#4 ++ x ++ 0x55#8) (if 0xFFF < s.i.toNat then s.i else 0x1000#16)))

/-- Fx65: MEM[I] to MEM[I + x] in V[0] to V[x], every register above x kept, memory and I kept; MEM_OOB with no
register written when I + x is above 0xFFF (43_index_memory.md R215). -/
def Obligations.LoadCopiesMemory : Prop :=
  ∀ (s : State) (x : RegIdx), decode (0xF#4 ++ x ++ 0x65#8) = .instr (.loadV x) ∧
    (s.i.toNat + x.toNat ≤ 0xFFF → ∃ t, exec (.loadV x) s = .next t ∧
      (∀ k : RegIdx, k.toNat ≤ x.toNat → t.getV k = s.mem.byteAt (s.i.toNat + k.toNat)) ∧
      (∀ k : RegIdx, x.toNat < k.toNat → t.getV k = s.getV k) ∧ Frame [.v] s t) ∧
    (0xFFF < s.i.toNat + x.toNat → exec (.loadV x) s =
      .next (s.faultedWith .memOob (0xF#4 ++ x ++ 0x65#8) (if 0xFFF < s.i.toNat then s.i else 0x1000#16)))

/-! ### The display -/

/-- 00E0: every pixel off and DIRTY raised, VF and all else kept (44_display.md R240). -/
def Obligations.ClearScreen : Prop :=
  decode 0x00E0#16 = .instr .cls ∧
  ∀ s : State, ∃ t, exec .cls s = .next t ∧ (∀ px py, t.pix.isOn px py = false) ∧ t.dirty = true ∧
    Frame [.pix, .dirty] s t

/-- Dxyn: each pixel of the grid is turned over exactly where a set sprite bit falls on it, VF is 1 exactly when such
a pixel was on before, DIRTY is raised, and nothing else changes; n = 0 draws nothing; MEM_OOB with nothing drawn when
the last row's address is above 0xFFF (44_display.md R241 to R246, R248, R249). -/
def Obligations.DrawTogglesSpriteAndFlagsCollision : Prop :=
  ∀ (s : State) (x y : RegIdx) (n : Count), decode (0xD#4 ++ x ++ y ++ n) = .instr (.drw x y n) ∧
    (n.toNat = 0 ∨ s.i.toNat + (n.toNat - 1) ≤ 0xFFF → ∃ t, exec (.drw x y n) s = .next t ∧
      (∀ px py, px < 64 → py < 32 → t.pix.isOn px py = (s.pix.isOn px py ^^ spriteCovers s x y n px py)) ∧
      (t.getV VF = 0x00#8 ∨ t.getV VF = 0x01#8) ∧
      (t.getV VF = 0x01#8 ↔
        ∃ px py, px < 64 ∧ py < 32 ∧ spriteCovers s x y n px py = true ∧ s.pix.isOn px py = true) ∧
      t.dirty = true ∧ (∀ r, r ≠ VF → t.getV r = s.getV r) ∧ Frame [.v, .pix, .dirty] s t) ∧
    (0 < n.toNat → 0xFFF < s.i.toNat + (n.toNat - 1) → exec (.drw x y n) s =
      .next (s.faultedWith .memOob (0xD#4 ++ x ++ y ++ n) (if 0xFFF < s.i.toNat then s.i else 0x1000#16)))

/-- The same sprite drawn twice at the same place restores the screen; where the first draw met no pixel that was on
and some set bit lies in the grid, the second flags a collision (44_display.md R247, R248). x and y are not 0xF, since
the first draw writes VF and a coordinate in VF would not be the same place. -/
def Obligations.DrawTwiceRestoresScreen : Prop :=
  ∀ (s t u : State) (x y : RegIdx) (n : Count), s.fault.cause = .none → x ≠ VF → y ≠ VF →
    exec (.drw x y n) s = .next t → t.fault.cause = .none → exec (.drw x y n) t = .next u →
    u.pix = s.pix ∧
    ((∃ px py, px < 64 ∧ py < 32 ∧ spriteCovers s x y n px py = true) → t.getV VF = 0x00#8 → u.getV VF = 0x01#8)

/-! ### The keypad and the timers -/

/-- Ex9E and ExA1: a further 2 on PC exactly when key V[x] is pressed, or exactly when it is not; KEY_RANGE when V[x]
is above 15 (45_timers_keys.md R270, R271). -/
def Obligations.KeySkips : Prop :=
  ∀ (s : State) (x : RegIdx),
    decode (0xE#4 ++ x ++ 0x9E#8) = .instr (.skp x) ∧ decode (0xE#4 ++ x ++ 0xA1#8) = .instr (.sknp x) ∧
    (∀ h : (s.getV x).toNat < 16,
      (∃ t, exec (.skp x) s = .next t ∧
        t.pc = (if s.key[(s.getV x).toNat] = true then s.pc + 2#16 else s.pc) ∧ Frame [.pc] s t) ∧
      (∃ t, exec (.sknp x) s = .next t ∧
        t.pc = (if s.key[(s.getV x).toNat] = true then s.pc else s.pc + 2#16) ∧ Frame [.pc] s t)) ∧
    (15 < (s.getV x).toNat → ∃ f : Word, f.toNat = (s.getV x).toNat ∧
      exec (.skp x) s = .next (s.faultedWith .keyRange (0xE#4 ++ x ++ 0x9E#8) f) ∧
      exec (.sknp x) s = .next (s.faultedWith .keyRange (0xE#4 ++ x ++ 0xA1#8) f))

/-- Fx0A: the smallest pressed key's index in V[x]; with no key pressed, PC stepped back by 2 and AWAIT raised, so
that a whole cycle leaves PC where it was, ticks the timers and changes nothing else (45_timers_keys.md R273). -/
def Obligations.KeyWait : Prop :=
  ∀ (s : State) (x : RegIdx), decode (0xF#4 ++ x ++ 0x0A#8) = .instr (.ldVxK x) ∧
    (∀ k (h : k < 16), s.key[k] = true → (∀ j (hj : j < k), s.key[j] = false) →
      ∃ t, exec (.ldVxK x) s = .next t ∧ (t.getV x).toNat = k ∧ (∀ r, r ≠ x → t.getV r = s.getV r) ∧ Frame [.v] s t) ∧
    ((∀ k (h : k < 16), s.key[k] = false) →
      (∃ t, exec (.ldVxK x) s = .next t ∧ t.pc = s.pc - 2#16 ∧ t.await = true ∧ Frame [.pc, .await] s t) ∧
      (s.fetches → decode s.wordAtPc = .instr (.ldVxK x) → ∃ t, step s = .next t ∧ t.await = true ∧
        t.dt.toNat = s.dt.toNat - 1 ∧ t.st.toNat = s.st.toNat - 1 ∧ Frame [.await, .dt, .st] s t))

/-- Fx07: V[x] becomes DT, the value before the cycle's tick, after which DT is one less
(45_timers_keys.md R272). -/
def Obligations.DelayTimerRead : Prop :=
  ∀ (s : State) (x : RegIdx), decode (0xF#4 ++ x ++ 0x07#8) = .instr (.ldVxDT x) ∧
    (∃ t, exec (.ldVxDT x) s = .next t ∧ t.getV x = s.dt ∧ (∀ r, r ≠ x → t.getV r = s.getV r) ∧ Frame [.v] s t) ∧
    (s.fetches → decode s.wordAtPc = .instr (.ldVxDT x) →
      ∃ t, step s = .next t ∧ t.getV x = s.dt ∧ t.dt.toNat = s.dt.toNat - 1)

/-- Fx15 and Fx18: DT and ST become V[x], and after the tick of the same cycle V[x] - 1, or 0 when V[x] = 0
(45_timers_keys.md R274, R275). -/
def Obligations.TimerWrites : Prop :=
  ∀ (s : State) (x : RegIdx),
    decode (0xF#4 ++ x ++ 0x15#8) = .instr (.ldDTVx x) ∧ decode (0xF#4 ++ x ++ 0x18#8) = .instr (.ldSTVx x) ∧
    (∃ t, exec (.ldDTVx x) s = .next t ∧ t.dt = s.getV x ∧ Frame [.dt] s t) ∧
    (∃ t, exec (.ldSTVx x) s = .next t ∧ t.st = s.getV x ∧ Frame [.st] s t) ∧
    (s.fetches → decode s.wordAtPc = .instr (.ldDTVx x) →
      ∃ t, step s = .next t ∧ t.dt.toNat = (s.getV x).toNat - 1) ∧
    (s.fetches → decode s.wordAtPc = .instr (.ldSTVx x) →
      ∃ t, step s = .next t ∧ t.st.toNat = (s.getV x).toNat - 1 ∧
        ((hostObserve t).sound = true ↔ 1 < (s.getV x).toNat))

/-! ### The host's moves and the launch -/

/-- Every move of HostOp, with any FONT, keeps the invariant, which holds after the Initializer: memory in the model's
canonical form (log entries 5 and 12), and AWAIT = 1 only on a running core with an Fx0A at PC (10_state.md R37, the
spec's own derivation). The moves hold no Load into a running machine (log entry 7). -/
def Obligations.EveryHostMoveKeepsInvariant : Prop :=
  ∀ font : Config.Font, (State.initial font).Inv ∧
    ∀ (s : State) (op : HostOp), s.Inv → (hostOp font op s).1.Inv

/-- The move boot is Init and then Load (the model's choice of log entry 7): a ROM of more than 3584 bytes leaves what
Init left, with a capacity error; a shorter one gives the launch state, the Initializer's with the ROM from 0x200 on
(70_reset_and_hazards.md R335, the spec's own derivation). -/
def Obligations.BootIsInitThenLoad : Prop :=
  ∀ (font : Config.Font) (s : State) (rom : List Byte),
    (3584 < rom.length → hostOp font (.boot rom) s = (hostInit font s, some .capacity)) ∧
    (rom.length ≤ 3584 → ∃ t, hostOp font (.boot rom) s = (t, none) ∧
      (∀ j, j < rom.length → some (t.mem.byteAt (0x200 + j)) = rom[j]?) ∧
      (∀ k (h : k < 80), t.mem.byteAt (0x50 + k) = font[k]) ∧
      (∀ a, (a < 0x50 ∨ (0xA0 ≤ a ∧ a < 0x200) ∨ (0x200 + rom.length ≤ a ∧ a ≤ 0xFFF)) → t.mem.byteAt a = 0x00#8) ∧
      t.pc = 0x0200#16 ∧ Frame [.mem] (hostInit font s) t)

/-- Restore refuses a memory list that is not in the model's canonical form, with the state unchanged: the model's
choice of log entry 12. -/
def Obligations.NonCanonicalSnapshotIsRefused : Prop :=
  ∀ (font : Config.Font) (u s : State), u.mem.wf = false →
    hostOp font (.restore u) s = (s, some .inconsistentState)

/-- Load keeps the model's canonical form of memory (log entry 5, no rule of the spec), on any state that has it,
whether it copies or refuses. -/
def Obligations.LoadKeepsCanonicalMemory : Prop :=
  ∀ (s : State) (rom : List Byte), s.mem.wf = true → (hostLoad rom s).1.mem.wf = true
end

