-- ==== Sys2Proof/Laws/Decode.lean ====
section
/-! SUPPORT. The fields of a word put together from its parts, a word as its four nibbles, and bytes and words of memory. -/

namespace Sys2Proof

variable (a b c d : BitVec 4) (k : BitVec 8) (n : BitVec 12)

/-! ### Fields of the NNN format -/

@[simp] theorem opField_nnn : opField (a ++ n) = a := BitVec.extractLsb'_append_eq_left (w := 4) (w' := 12)

@[simp] theorem nnnField_nnn : nnnField (a ++ n) = n := BitVec.extractLsb'_append_eq_right (w := 4) (w' := 12)

/-! ### Fields of the XKK and XS8 formats -/

@[simp] theorem opField_xkk : opField (a ++ b ++ k) = a :=
  (BitVec.extractLsb'_append_eq_of_le (v := 8) (w := 8) (start := 12) (len := 4) (by decide)).trans
    (BitVec.extractLsb'_append_eq_left (w := 4) (w' := 4))

@[simp] theorem xField_xkk : xField (a ++ b ++ k) = b :=
  (BitVec.extractLsb'_append_eq_of_le (v := 8) (w := 8) (start := 8) (len := 4) (by decide)).trans
    (BitVec.extractLsb'_append_eq_right (w := 4) (w' := 4))

@[simp] theorem kkField_xkk : kkField (a ++ b ++ k) = k := BitVec.extractLsb'_append_eq_right (w := 8) (w' := 8)

/-! ### Fields of the XYS and XYN formats -/

@[simp] theorem opField_xyn : opField (a ++ b ++ c ++ d) = a :=
  (BitVec.extractLsb'_append_eq_of_le (v := 12) (w := 4) (start := 12) (len := 4) (by decide)).trans
    ((BitVec.extractLsb'_append_eq_of_le (v := 8) (w := 4) (start := 8) (len := 4) (by decide)).trans
      (BitVec.extractLsb'_append_eq_left (w := 4) (w' := 4)))

@[simp] theorem xField_xyn : xField (a ++ b ++ c ++ d) = b :=
  (BitVec.extractLsb'_append_eq_of_le (v := 12) (w := 4) (start := 8) (len := 4) (by decide)).trans
    ((BitVec.extractLsb'_append_eq_of_le (v := 8) (w := 4) (start := 4) (len := 4) (by decide)).trans
      (BitVec.extractLsb'_append_eq_right (w := 4) (w' := 4)))

@[simp] theorem yField_xyn : yField (a ++ b ++ c ++ d) = c :=
  (BitVec.extractLsb'_append_eq_of_le (v := 12) (w := 4) (start := 4) (len := 4) (by decide)).trans
    (BitVec.extractLsb'_append_eq_right (w := 8) (w' := 4))

@[simp] theorem nField_xyn : nField (a ++ b ++ c ++ d) = d := BitVec.extractLsb'_append_eq_right (w := 12) (w' := 4)

/-! ### A word from its fields -/

/-- Two words with the same bits 15:8 and 7:0 halves are equal. -/
theorem word_of_halves (w : Word) : wordOfBytes (hiByte w) (loByte w) = w := by
  apply BitVec.eq_of_getLsbD_eq
  intro i hi
  have h : (wordOfBytes (hiByte w) (loByte w)).getLsbD i
      = if i < 8 then (loByte w).getLsbD i else (hiByte w).getLsbD (i - 8) :=
    BitVec.getLsbD_append (x := hiByte w) (y := loByte w)
  rw [h]
  unfold loByte hiByte
  split
  · rw [BitVec.getLsbD_extractLsb']
    simp [*]
  · rw [BitVec.getLsbD_extractLsb']
    have : 8 + (i - 8) = i := by omega
    have h2 : i - 8 < 8 := by omega
    simp [this, h2]

/-- A word is its op nibble and its address field. -/
theorem word_nnn (w : Word) : opField w ++ nnnField w = w := by
  apply BitVec.eq_of_getLsbD_eq
  intro i hi
  have h : (opField w ++ nnnField w : Word).getLsbD i
      = if i < 12 then (nnnField w).getLsbD i else (opField w).getLsbD (i - 12) :=
    BitVec.getLsbD_append (x := opField w) (y := nnnField w)
  rw [h]
  unfold opField nnnField
  split
  · rw [BitVec.getLsbD_extractLsb']
    simp [*]
  · rw [BitVec.getLsbD_extractLsb']
    have : 12 + (i - 12) = i := by omega
    have h2 : i - 12 < 4 := by omega
    simp [this, h2]

/-- The address field is x and kk. -/
theorem nnnField_split (w : Word) : nnnField w = xField w ++ kkField w := by
  apply BitVec.eq_of_getLsbD_eq
  intro i hi
  have h : (xField w ++ kkField w : Addr12).getLsbD i
      = if i < 8 then (kkField w).getLsbD i else (xField w).getLsbD (i - 8) :=
    BitVec.getLsbD_append (x := xField w) (y := kkField w)
  rw [h]
  unfold nnnField xField kkField
  split
  · simp only [BitVec.getLsbD_extractLsb', Nat.zero_add]
    simp [*]
  · simp only [BitVec.getLsbD_extractLsb', Nat.zero_add]
    have : 8 + (i - 8) = i := by omega
    have h2 : i - 8 < 4 := by omega
    simp [this, h2, hi]

/-- The low byte is y and n. -/
theorem kkField_split (w : Word) : kkField w = yField w ++ nField w := by
  apply BitVec.eq_of_getLsbD_eq
  intro i hi
  have h : (yField w ++ nField w : Byte).getLsbD i
      = if i < 4 then (nField w).getLsbD i else (yField w).getLsbD (i - 4) :=
    BitVec.getLsbD_append (x := yField w) (y := nField w)
  rw [h]
  unfold kkField yField nField
  split
  · simp only [BitVec.getLsbD_extractLsb', Nat.zero_add]
    simp [*]
  · simp only [BitVec.getLsbD_extractLsb', Nat.zero_add]
    have : 4 + (i - 4) = i := by omega
    have h2 : i - 4 < 4 := by omega
    simp [this, h2, hi]

/-- A word is its op nibble, x and kk. -/
theorem word_xkk (w : Word) : opField w ++ xField w ++ kkField w = w := by
  have h : (opField w ++ (xField w ++ kkField w) : Word) = opField w ++ xField w ++ kkField w :=
    (BitVec.append_assoc (x₁ := opField w) (x₂ := xField w) (x₃ := kkField w)).symm
  rw [← h, ← nnnField_split, word_nnn]

/-- A word is its four nibbles. -/
theorem word_xyn (w : Word) : opField w ++ xField w ++ yField w ++ nField w = w := by
  have h : ((opField w ++ xField w) ++ (yField w ++ nField w) : Word)
      = opField w ++ xField w ++ yField w ++ nField w :=
    (BitVec.append_assoc (x₁ := opField w ++ xField w) (x₂ := yField w) (x₃ := nField w)).symm
  rw [← h, ← kkField_split, word_xkk]

end Sys2Proof
end

