-- ==== Sys2Proof/Laws/Display.lean ====
section
/-! SUPPORT. What the raster draws: every operation on the screen said by the pixels it leaves on. -/

namespace Sys2Proof.Machine

theorem Screen.isOn_outside (p : Screen) {px py : Nat} (h : ¬(px < 64 ∧ py < 32)) : p.isOn px py = false := by
  rw [Screen.isOn, dif_neg h]

@[simp] theorem Screen.isOn_blank (px py : Nat) : Screen.blank.isOn px py = false := by
  unfold Screen.isOn Screen.blank
  split <;> simp

/-- Two screens with the same pixels on are equal. -/
theorem Screen.ext_isOn {p q : Screen} (h : ∀ px py, p.isOn px py = q.isOn px py) : p = q := by
  apply Vector.ext
  intro px hx
  apply Vector.ext
  intro py hy
  have := h px py
  simpa [Screen.isOn, hx, hy] using this

/-- A toggle turns one pixel of the grid over and leaves every other pixel. -/
theorem Screen.isOn_toggle (p : Screen) (px py qx qy : Nat) :
    (p.toggle px py).isOn qx qy =
      (p.isOn qx qy ^^ (decide (qx = px) && decide (qy = py) && decide (px < 64) && decide (py < 32))) := by
  unfold Screen.toggle
  by_cases hp : px < 64 ∧ py < 32
  · rw [dif_pos hp]
    unfold Screen.isOn
    by_cases hq : qx < 64 ∧ qy < 32
    · rw [dif_pos hq, dif_pos hq, Vector.getElem_set]
      by_cases hx : px = qx
      · subst hx
        by_cases hy : py = qy
        · subst hy
          simp [hp]
        · have : ¬qy = py := fun e => hy e.symm
          simp [hy, this]
      · have : ¬qx = px := fun e => hx e.symm
        simp [hx, this]
    · rw [dif_neg hq, dif_neg hq]
      have : ¬(qx = px ∧ qy = py) := by
        rintro ⟨rfl, rfl⟩
        exact hq hp
      by_cases hx : qx = px
      · by_cases hy : qy = py
        · exact absurd ⟨hx, hy⟩ this
        · simp [hy]
      · simp [hx]
  · rw [dif_neg hp]
    by_cases hx : px < 64
    · have hy : ¬py < 32 := fun h => hp ⟨hx, h⟩
      simp [hy]
    · simp [hx]

/-- The set bit of byte b, one of k columns from column c on of a row at (x0, py), that falls on (qx, qy). -/
def colCovers (b : Byte) (x0 py k c qx qy : Nat) : Bool :=
  decide (qy = py) && decide (x0 + c ≤ qx) && decide (qx < x0 + c + k) && b.getLsbD (7 - (qx - x0))

theorem colCovers_succ (b : Byte) (x0 py k c qx qy : Nat) :
    colCovers b x0 py (k + 1) c qx qy =
      (colCovers b x0 py k (c + 1) qx qy ||
        (decide (qx = x0 + c) && decide (qy = py) && b.getLsbD (7 - c))) := by
  unfold colCovers
  by_cases hy : qy = py
  · by_cases hx : qx = x0 + c
    · subst hx
      have h1 : x0 + c - x0 = c := by omega
      simp [hy, h1]
    · by_cases hin : x0 + (c + 1) ≤ qx ∧ qx < x0 + (c + 1) + k
      · have h2 : x0 + c ≤ qx := by omega
        have h3 : qx < x0 + c + (k + 1) := by omega
        simp [hy, hx, hin.1, hin.2, h2, h3]
      · by_cases h2 : x0 + c ≤ qx
        · have h3 : ¬qx < x0 + c + (k + 1) := by omega
          have h4 : ¬qx < x0 + (c + 1) + k := by omega
          simp [hx, h3, h4]
        · have h3 : ¬x0 + (c + 1) ≤ qx := by omega
          simp [hx, h2, h3]
  · simp [hy]

/-- The pixels after a row of columns. -/
theorem drawCols_isOn (b : Byte) (x0 py k c : Nat) (d : Raster) (qx qy : Nat) :
    (drawCols b x0 py k c d).screen.isOn qx qy =
      (d.screen.isOn qx qy ^^ (decide (qx < 64) && decide (qy < 32) && colCovers b x0 py k c qx qy)) := by
  induction k generalizing c d with
  | zero =>
    have : colCovers b x0 py 0 c qx qy = false := by
      unfold colCovers
      by_cases h : x0 + c ≤ qx
      · simp
      · simp [h]
    simp [drawCols, this]
  | succ k ih =>
    rw [drawCols, ih, colCovers_succ]
    by_cases hb : b.getLsbD (7 - c) = true
    · rw [if_pos hb]
      simp only [drawPixel, Screen.isOn_toggle, hb, Bool.and_true]
      by_cases hx : qx = x0 + c
      · by_cases hy : qy = py
        · subst hx hy
          have : colCovers b x0 qy k (c + 1) (x0 + c) qy = false := by
            unfold colCovers
            simp
          simp [this]
        · simp [hy]
      · simp [hx]
    · rw [if_neg hb]
      simp [hb]

/-- The collision flag after a row of columns: some set bit met an on pixel of the grid. -/
theorem drawCols_hit (b : Byte) (x0 py k c : Nat) (d : Raster) :
    (drawCols b x0 py k c d).hit = true ↔
      d.hit = true ∨ ∃ qx qy, colCovers b x0 py k c qx qy = true ∧ d.screen.isOn qx qy = true := by
  induction k generalizing c d with
  | zero =>
    simp only [drawCols]
    constructor
    · exact .inl
    · rintro (h | ⟨qx, qy, h, _⟩)
      · exact h
      · simp [colCovers] at h
        omega
  | succ k ih =>
    rw [drawCols, ih]
    by_cases hb : b.getLsbD (7 - c) = true
    · rw [if_pos hb]
      simp only [drawPixel, Bool.or_eq_true]
      constructor
      · rintro ((h | h) | ⟨qx, qy, h1, h2⟩)
        · exact .inl h
        · exact .inr ⟨x0 + c, py, by rw [colCovers_succ]; simp [hb], h⟩
        · refine .inr ⟨qx, qy, by rw [colCovers_succ, h1, Bool.true_or], ?_⟩
          have hx : ¬qx = x0 + c := by
            simp [colCovers] at h1
            omega
          rw [Screen.isOn_toggle] at h2
          simpa [hx] using h2
      · rintro (h | ⟨qx, qy, h1, h2⟩)
        · exact .inl (.inl h)
        · rw [colCovers_succ, Bool.or_eq_true] at h1
          rcases h1 with h1 | h1
          · refine .inr ⟨qx, qy, h1, ?_⟩
            have hx : ¬qx = x0 + c := by
              simp [colCovers] at h1
              omega
            rw [Screen.isOn_toggle]
            simpa [hx] using h2
          · simp at h1
            obtain ⟨⟨rfl, rfl⟩, _⟩ := h1
            exact .inl (.inr h2)
    · rw [if_neg hb]
      have : ∀ qx qy, colCovers b x0 py (k + 1) c qx qy = colCovers b x0 py k (c + 1) qx qy := by
        intro qx qy
        rw [colCovers_succ]
        simp [hb]
      simp only [this]

/-- Some set bit of the sprite rows bs, the first at row py with its left column at x0, falls on (qx, qy). -/
def rowsCover (x0 : Nat) : List Byte → Nat → Nat → Nat → Bool
  | [], _, _, _ => false
  | b :: bs, py, qx, qy => colCovers b x0 py 8 0 qx qy || rowsCover x0 bs (py + 1) qx qy

theorem rowsCover_above (x0 : Nat) (bs : List Byte) (py qx qy : Nat) (h : qy < py) :
    rowsCover x0 bs py qx qy = false := by
  induction bs generalizing py with
  | nil => rfl
  | cons b bs ih =>
    have : ¬qy = py := by omega
    simp [rowsCover, colCovers, this, ih (py + 1) (by omega)]

/-- Cover said by the place of the pixel in the sprite: row qy - py of bs, bit 7 - (qx - x0) of its byte. -/
theorem rowsCover_eq (x0 : Nat) (bs : List Byte) (py qx qy : Nat) :
    rowsCover x0 bs py qx qy =
      (decide (x0 ≤ qx) && decide (qx < x0 + 8) && decide (py ≤ qy) && decide (qy < py + bs.length) &&
        (bs.getD (qy - py) 0x00#8).getLsbD (7 - (qx - x0))) := by
  induction bs generalizing py with
  | nil =>
    simp [rowsCover]
  | cons b bs ih =>
    rw [rowsCover, ih]
    by_cases hy : qy = py
    · subst hy
      simp [colCovers]
    · by_cases hp : py + 1 ≤ qy
      · have h1 : qy - py = (qy - (py + 1)) + 1 := by omega
        have h2 : py ≤ qy := by omega
        have h3 : (qy < py + (b :: bs).length) ↔ (qy < py + 1 + bs.length) := by simp; omega
        simp only [colCovers, hy, hp, h1, h2, h3, decide_true, decide_false, Bool.false_and, Bool.false_or,
          Bool.and_true, List.getD_cons_succ]
      · have h2 : ¬py ≤ qy := by omega
        simp [colCovers, hy, hp, h2]

/-- The pixels after the whole sprite: the old pixel, turned over where the sprite covers it within the grid. -/
theorem drawRows_isOn (x0 : Nat) (bs : List Byte) (py : Nat) (d : Raster) (qx qy : Nat) :
    (drawRows x0 bs py d).screen.isOn qx qy =
      (d.screen.isOn qx qy ^^ (decide (qx < 64) && decide (qy < 32) && rowsCover x0 bs py qx qy)) := by
  induction bs generalizing py d with
  | nil => simp [drawRows, rowsCover]
  | cons b bs ih =>
    rw [drawRows, ih, drawCols_isOn, rowsCover]
    by_cases hy : qy = py
    · subst hy
      simp [rowsCover_above x0 bs (qy + 1) qx qy (by omega)]
    · simp [colCovers, hy]

/-- The collision flag after the whole sprite: some covered pixel of the grid was on before the draw. -/
theorem drawRows_hit (x0 : Nat) (bs : List Byte) (py : Nat) (d : Raster) :
    (drawRows x0 bs py d).hit = true ↔
      d.hit = true ∨ ∃ qx qy, rowsCover x0 bs py qx qy = true ∧ d.screen.isOn qx qy = true := by
  induction bs generalizing py d with
  | nil => simp [drawRows, rowsCover]
  | cons b bs ih =>
    rw [drawRows, ih, drawCols_hit]
    simp only [rowsCover, Bool.or_eq_true]
    constructor
    · rintro ((h | ⟨qx, qy, h1, h2⟩) | ⟨qx, qy, h1, h2⟩)
      · exact .inl h
      · exact .inr ⟨qx, qy, .inl h1, h2⟩
      · refine .inr ⟨qx, qy, .inr h1, ?_⟩
        have hy : ¬qy = py := by
          rintro rfl
          rw [rowsCover_above x0 bs (qy + 1) qx qy (by omega)] at h1
          cases h1
        rw [drawCols_isOn] at h2
        simpa [colCovers, hy] using h2
    · rintro (h | ⟨qx, qy, h1 | h1, h2⟩)
      · exact .inl (.inl h)
      · exact .inl (.inr ⟨qx, qy, h1, h2⟩)
      · refine .inr ⟨qx, qy, h1, ?_⟩
        have hy : ¬qy = py := by
          rintro rfl
          rw [rowsCover_above x0 bs (qy + 1) qx qy (by omega)] at h1
          cases h1
        rw [drawCols_isOn]
        simpa [colCovers, hy] using h2

end Sys2Proof.Machine
end

