-- ==== Sys2Proof/Laws/Memory.lean ====
section
/-! SUPPORT. The laws of memory: read after write, the canonical form kept by every operation, and what the range check answers. -/

namespace Sys2Proof.Machine

@[simp] theorem Memory.wfFrom_nil (lo : Nat) : Memory.wfFrom lo [] = true := rfl

@[simp] theorem Memory.wfFrom_cons (lo a : Nat) (b : Byte) (m : Memory) :
    Memory.wfFrom lo ((a, b) :: m) = true ↔
      lo ≤ a ∧ a < 4096 ∧ b ≠ resetByte a ∧ Memory.wfFrom (a + 1) m = true := by
  simp [Memory.wfFrom, and_assoc]

theorem Memory.wfFrom_mono {lo lo' : Nat} (h : lo' ≤ lo) :
    ∀ {m : Memory}, Memory.wfFrom lo m = true → Memory.wfFrom lo' m = true
  | [], _ => rfl
  | (a, b) :: m, hw => by
    rw [Memory.wfFrom_cons] at hw ⊢
    exact ⟨by omega, hw.2⟩

/-- Below its first listed address a memory reads as the Initializer leaves it. -/
theorem Memory.byteAt_below {lo k : Nat} (hk : k < lo) :
    ∀ {m : Memory}, Memory.wfFrom lo m = true → m.byteAt k = resetByte k
  | [], _ => rfl
  | (a, b) :: m, hw => by
    rw [Memory.wfFrom_cons] at hw
    have : k ≠ a := by omega
    simp only [Memory.byteAt, this, if_false]
    exact Memory.byteAt_below (by omega) hw.2.2.2

theorem Memory.byteAt_consCell {m : Memory} {a : Nat} (hw : Memory.wfFrom (a + 1) m = true) (b : Byte) (k : Nat) :
    (Memory.consCell m a b).byteAt k = if k = a then b else m.byteAt k := by
  unfold Memory.consCell
  split
  · rename_i hb
    split
    · rename_i hk
      subst hk
      rw [Memory.byteAt_below (Nat.lt_succ_self _) hw, hb]
    · rfl
  · simp only [Memory.byteAt]

theorem Memory.consCell_wfFrom {m : Memory} {lo a : Nat} (hw : Memory.wfFrom (a + 1) m = true) (hlo : lo ≤ a)
    (ha : a < 4096) (b : Byte) : Memory.wfFrom lo (Memory.consCell m a b) = true := by
  unfold Memory.consCell
  split
  · exact Memory.wfFrom_mono (by omega) hw
  · rename_i hb
    exact (Memory.wfFrom_cons ..).2 ⟨hlo, ha, hb, hw⟩

theorem Memory.byteAt_put_from (a : Nat) (b : Byte) (k : Nat) :
    ∀ {lo : Nat} {m : Memory}, Memory.wfFrom lo m = true →
      (m.put a b).byteAt k = if k = a then b else m.byteAt k
  | _, [], _ => Memory.byteAt_consCell rfl b k
  | lo, (c, d) :: m, hw => by
    rw [Memory.wfFrom_cons] at hw
    obtain ⟨h1, h2, h3, h4⟩ := hw
    unfold Memory.put
    split
    · rename_i hlt
      exact Memory.byteAt_consCell ((Memory.wfFrom_cons ..).2 ⟨by omega, h2, h3, h4⟩) b k
    · split
      · rename_i _ heq
        subst heq
        rw [Memory.byteAt_consCell h4]
        simp only [Memory.byteAt]
        split <;> rfl
      · rename_i hlt hne
        simp only [Memory.byteAt]
        rw [Memory.byteAt_put_from a b k h4]
        by_cases hk : k = c
        · simp [hk]
          omega
        · simp [hk]

theorem Memory.put_wfFrom {a : Nat} (ha : a < 4096) (b : Byte) :
    ∀ {lo : Nat} {m : Memory}, lo ≤ a → Memory.wfFrom lo m = true → Memory.wfFrom lo (m.put a b) = true
  | _, [], hlo, _ => Memory.consCell_wfFrom rfl hlo ha b
  | lo, (c, d) :: m, hlo, hw => by
    rw [Memory.wfFrom_cons] at hw
    obtain ⟨h1, h2, h3, h4⟩ := hw
    unfold Memory.put
    split
    · rename_i hlt
      exact Memory.consCell_wfFrom ((Memory.wfFrom_cons ..).2 ⟨by omega, h2, h3, h4⟩) hlo ha b
    · split
      · rename_i _ heq
        subst heq
        exact Memory.consCell_wfFrom h4 hlo ha b
      · exact (Memory.wfFrom_cons ..).2 ⟨h1, h2, h3, Memory.put_wfFrom ha b (by omega) h4⟩

/-- Read after write: the written address reads as the byte, every other address as before. -/
theorem Memory.byteAt_put {m : Memory} (hw : m.wf = true) (a : Nat) (b : Byte) (k : Nat) :
    (m.put a b).byteAt k = if k = a then b else m.byteAt k :=
  Memory.byteAt_put_from a b k hw

/-- A write of an address of the space keeps the canonical form. -/
theorem Memory.put_wf {m : Memory} (hw : m.wf = true) {a : Nat} (ha : a < 4096) (b : Byte) :
    (m.put a b).wf = true :=
  Memory.put_wfFrom ha b (Nat.zero_le _) hw

theorem Memory.putBytes_wf {m : Memory} {a : Nat} {bs : List Byte} (hw : m.wf = true)
    (ha : a + bs.length ≤ 4096) : (m.putBytes a bs).wf = true := by
  induction bs generalizing m a with
  | nil => exact hw
  | cons b bs ih =>
    simp only [List.length_cons] at ha
    exact ih (Memory.put_wf hw (by omega) b) (by omega)

/-- Read after a write of consecutive bytes. -/
theorem Memory.byteAt_putBytes {m : Memory} {a : Nat} {bs : List Byte} (hw : m.wf = true)
    (ha : a + bs.length ≤ 4096) (k : Nat) :
    (m.putBytes a bs).byteAt k =
      if a ≤ k ∧ k < a + bs.length then bs.getD (k - a) 0x00#8 else m.byteAt k := by
  induction bs generalizing m a with
  | nil =>
    have : ¬(a ≤ k ∧ k < a + ([] : List Byte).length) := by simp
    rw [if_neg this]
    rfl
  | cons b bs ih =>
    simp only [List.length_cons] at ha ⊢
    simp only [Memory.putBytes]
    rw [ih (Memory.put_wf hw (by omega) b) (by omega), Memory.byteAt_put hw]
    by_cases hka : k = a
    · subst hka
      have h2 : k ≤ k ∧ k < k + (bs.length + 1) := by omega
      simp [h2]
    · by_cases hin : a + 1 ≤ k ∧ k < a + 1 + bs.length
      · have h2 : a ≤ k ∧ k < a + (bs.length + 1) := by omega
        have h3 : k - a = (k - (a + 1)) + 1 := by omega
        rw [if_pos hin, if_pos h2, h3]
        simp
      · have h2 : ¬(a ≤ k ∧ k < a + (bs.length + 1)) := by omega
        rw [if_neg hin, if_neg h2, if_neg hka]

/-- A put at a leaves every other address alone, whatever the list. -/
theorem Memory.byteAt_put_ne (a : Nat) (b : Byte) {k : Nat} (h : k ≠ a) :
    ∀ m : Memory, (Memory.put m a b).byteAt k = Memory.byteAt m k := by
  have hc : ∀ m : Memory, (Memory.consCell m a b).byteAt k = Memory.byteAt m k := by
    intro m
    unfold Memory.consCell
    split
    · rfl
    · simp [Memory.byteAt, h]
  intro m
  induction m with
  | nil => exact hc []
  | cons p m ih =>
    simp only [Memory.put]
    split
    · exact hc _
    · split
      · rename_i he
        rw [hc, Memory.byteAt, if_neg (he ▸ h)]
      · simp only [Memory.byteAt, ih]

/-- The stored bytes are the only ones that change, whatever the list. -/
theorem Memory.byteAt_putBytes_outside {k : Nat} (bs : List Byte) :
    ∀ (m : Memory) (a : Nat), ¬(a ≤ k ∧ k < a + bs.length) → (m.putBytes a bs).byteAt k = m.byteAt k := by
  induction bs with
  | nil => intros; rfl
  | cons b bs ih =>
    intro m a h
    simp only [List.length_cons] at h
    rw [Memory.putBytes, ih _ _ (by omega), Memory.byteAt_put_ne a b (by omega)]

@[simp] theorem Memory.bytesAt_length (m : Memory) (a n : Nat) : (m.bytesAt a n).length = n := by
  simp [Memory.bytesAt]

theorem Memory.bytesAt_getD (m : Memory) (a : Nat) {n k : Nat} (h : k < n) (d : Byte) :
    (m.bytesAt a n).getD k d = m.byteAt (a + k) := by
  simp [Memory.bytesAt, List.getD, h]

theorem Memory.bytesAt_succ (m : Memory) (a n : Nat) :
    m.bytesAt a (n + 1) = m.byteAt a :: m.bytesAt (a + 1) n := by
  simp only [Memory.bytesAt, List.range_succ_eq_map, List.map_cons, List.map_map, Nat.add_zero, List.cons.injEq,
    true_and]
  apply List.map_congr_left
  intro k _
  simp only [Function.comp, Nat.succ_eq_add_one]
  congr 1
  omega

/-- The range check passes exactly when every address is in the space. -/
theorem firstOob_none {a n : Nat} (h : ∀ k, k < n → a + k ≤ 0xFFF) : firstOob a n = none := by
  unfold firstOob
  rw [List.find?_eq_none]
  intro e he
  obtain ⟨k, hk, rfl⟩ := List.mem_map.1 he
  have := h k (List.mem_range.1 hk)
  simp
  omega

/-- The first address out of range: the base itself where it is above 0xFFF, else 0x1000 (60_exceptions.md R301). -/
theorem firstOob_some {a n : Nat} (hn : 0 < n) (h : 0xFFF < a + (n - 1)) :
    firstOob a n = some (if 0xFFF < a then a else 0x1000) := by
  unfold firstOob
  rw [List.find?_map, Option.map_eq_some_iff]
  by_cases ha : 0xFFF < a
  · refine ⟨0, ?_, by simp [ha]⟩
    rw [List.find?_range_eq_some]
    exact ⟨by simpa using ha, List.mem_range.2 hn, fun j hj => absurd hj (Nat.not_lt_zero _)⟩
  · refine ⟨0x1000 - a, ?_, by rw [if_neg ha]; omega⟩
    rw [List.find?_range_eq_some]
    refine ⟨?_, List.mem_range.2 (by omega), ?_⟩
    · simp
      omega
    · intro j hj
      simp
      omega

theorem Memory.readRange_ok (m : Memory) {a n : Nat} (h : ∀ k, k < n → a + k ≤ 0xFFF) :
    m.readRange a n = .ok (m.bytesAt a n) := by
  rw [Memory.readRange, firstOob_none h]

theorem Memory.readRange_error (m : Memory) {a n : Nat} (hn : 0 < n) (h : 0xFFF < a + (n - 1)) :
    m.readRange a n = .error (if 0xFFF < a then a else 0x1000) := by
  rw [Memory.readRange, firstOob_some hn h]

theorem Memory.writeRange_ok (m : Memory) {a : Nat} {bs : List Byte} (h : ∀ k, k < bs.length → a + k ≤ 0xFFF) :
    m.writeRange a bs = .ok (m.putBytes a bs) := by
  rw [Memory.writeRange, firstOob_none h]

theorem Memory.writeRange_error (m : Memory) {a : Nat} {bs : List Byte} (hn : 0 < bs.length)
    (h : 0xFFF < a + (bs.length - 1)) : m.writeRange a bs = .error (if 0xFFF < a then a else 0x1000) := by
  rw [Memory.writeRange, firstOob_some hn h]

/-- Everything a checked read can answer. -/
theorem Memory.readRange_cases (m : Memory) (a n : Nat) :
    (m.readRange a n = .ok (m.bytesAt a n) ∧ ∀ k, k < n → a + k ≤ 0xFFF) ∨
    (m.readRange a n = .error (if 0xFFF < a then a else 0x1000) ∧ 0 < n ∧ 0xFFF < a + (n - 1)) := by
  by_cases h : ∀ k, k < n → a + k ≤ 0xFFF
  · exact .inl ⟨m.readRange_ok h, h⟩
  · simp only [not_forall] at h
    obtain ⟨k, hk, hlt⟩ := h
    have h1 : 0 < n := by omega
    have h2 : 0xFFF < a + (n - 1) := by omega
    exact .inr ⟨m.readRange_error h1 h2, h1, h2⟩

/-- Everything a checked write can answer. -/
theorem Memory.writeRange_cases (m : Memory) (a : Nat) (bs : List Byte) :
    (m.writeRange a bs = .ok (m.putBytes a bs) ∧ ∀ k, k < bs.length → a + k ≤ 0xFFF) ∨
    (m.writeRange a bs = .error (if 0xFFF < a then a else 0x1000) ∧ 0 < bs.length ∧
      0xFFF < a + (bs.length - 1)) := by
  by_cases h : ∀ k, k < bs.length → a + k ≤ 0xFFF
  · exact .inl ⟨m.writeRange_ok h, h⟩
  · simp only [not_forall] at h
    obtain ⟨k, hk, hlt⟩ := h
    have h1 : 0 < bs.length := by omega
    have h2 : 0xFFF < a + (bs.length - 1) := by omega
    exact .inr ⟨m.writeRange_error h1 h2, h1, h2⟩

/-- A checked write that is answered keeps the canonical form. -/
theorem Memory.writeRange_wf {m m' : Memory} {a : Nat} {bs : List Byte} (hw : m.wf = true)
    (h : m.writeRange a bs = .ok m') : m'.wf = true := by
  rcases m.writeRange_cases a bs with ⟨he, hr⟩ | ⟨he, _⟩
  · rw [he] at h
    cases h
    by_cases hb : bs.length = 0
    · rw [List.length_eq_zero_iff.1 hb]
      exact hw
    · exact Memory.putBytes_wf hw (by have := hr (bs.length - 1) (by omega); omega)
  · rw [he] at h
    cases h

end Sys2Proof.Machine
end

