-- ==== Sys2Proof/Laws/Ops.lean ====
section
/-! SUPPORT. What the shared operations can do: the call stack, the register ranges, the keypad, the fault entry and the fetch. -/

namespace Sys2Proof.Machine

/-! ### The call stack -/

theorem State.push_room (s : State) (a : Word) (h : s.sp.val < 16) :
    s.push a = some ((s.setStack (s.stack.set s.sp.val a h)).setSp ⟨s.sp.val + 1, by omega⟩) := by
  rw [State.push, dif_pos h]

theorem State.push_full (s : State) (a : Word) (h : s.sp.val = 16) : s.push a = none := by
  rw [State.push, dif_neg (by omega)]

theorem State.pop_some (s : State) (h : 0 < s.sp.val) :
    s.pop = some (s.stack[s.sp.val - 1], s.setSp ⟨s.sp.val - 1, by omega⟩) := by
  rw [State.pop, dif_neg (by omega)]

theorem State.pop_empty (s : State) (h : s.sp.val = 0) : s.pop = none := by
  rw [State.pop, dif_pos h]

/-! ### Register ranges -/

@[simp] theorem State.regRange_length (s : State) (x : RegIdx) : (s.regRange x).length = x.toNat + 1 := by
  have := x.isLt
  simp [State.regRange]
  omega

/-- The k-th byte of V[0..x] is V[k]. -/
theorem State.regRange_getD (s : State) {x k : RegIdx} (h : k.toNat ≤ x.toNat) (d : Byte) :
    (s.regRange x).getD k.toNat d = s.getV k := by
  have hk : k.toNat < x.toNat + 1 := by omega
  have hl : k.toNat < 16 := k.isLt
  simp [State.regRange, State.getV, List.getD, hk, hl]

/-- A register file after consecutive registers from k on have been loaded. -/
theorem loadRegs_getElem (bs : List Byte) (v : Vector Byte 16) (k j : Nat) (hj : j < 16) :
    (loadRegs v k bs)[j] = if k ≤ j ∧ j < k + bs.length then bs.getD (j - k) 0x00#8 else v[j] := by
  induction bs generalizing v k with
  | nil =>
    have : ¬(k ≤ j ∧ j < k + ([] : List Byte).length) := by simp
    rw [if_neg this]
    rfl
  | cons b bs ih =>
    simp only [loadRegs, List.length_cons]
    rw [ih, Vector.getElem_setIfInBounds]
    by_cases hkj : k = j
    · subst hkj
      have h1 : ¬(k + 1 ≤ k ∧ k < k + 1 + bs.length) := by omega
      have h2 : k ≤ k ∧ k < k + (bs.length + 1) := by omega
      rw [if_neg h1, if_pos h2, if_pos rfl]
      simp
    · rw [if_neg hkj]
      by_cases hin : k + 1 ≤ j ∧ j < k + 1 + bs.length
      · have h2 : k ≤ j ∧ j < k + (bs.length + 1) := by omega
        have h3 : j - k = (j - (k + 1)) + 1 := by omega
        rw [if_pos hin, if_pos h2, h3]
        simp
      · have h2 : ¬(k ≤ j ∧ j < k + (bs.length + 1)) := by omega
        rw [if_neg hin, if_neg h2]

/-! ### The keypad -/

theorem State.keyAt_some (s : State) {b : Byte} (h : b.toNat < 16) : s.keyAt b = some s.key[b.toNat] := by
  simp [State.keyAt, h]

theorem State.keyAt_none (s : State) {b : Byte} (h : 15 < b.toNat) : s.keyAt b = none := by
  simp [State.keyAt]
  omega

theorem State.firstPressed_some (s : State) (k : Nat) :
    s.firstPressed = some k ↔
      ∃ h : k < 16, s.key[k] = true ∧ ∀ j (hj : j < k), s.key[j] = false := by
  rw [State.firstPressed, List.findIdx?_eq_some_iff_getElem]
  simp

theorem State.firstPressed_none (s : State) :
    s.firstPressed = none ↔ ∀ k (h : k < 16), s.key[k] = false := by
  rw [State.firstPressed, List.findIdx?_eq_none_iff]
  constructor
  · intro h k hk
    exact h _ (Vector.mem_toList_iff.2 (Vector.getElem_mem hk))
  · intro h b hb
    obtain ⟨k, hk, rfl⟩ := Vector.getElem_of_mem (Vector.mem_toList_iff.1 hb)
    exact h k hk

/-! ### Faults -/

@[simp] theorem State.enterFault_pc (s : State) (c : Cause) (p w f : Word) : (s.enterFault c p w f).pc = p := rfl
@[simp] theorem State.enterFault_await (s : State) (c : Cause) (p w f : Word) :
    (s.enterFault c p w f).await = false := rfl
@[simp] theorem State.enterFault_fault (s : State) (c : Cause) (p w f : Word) :
    (s.enterFault c p w f).fault = { cause := c, fpc := p, fword := w, finfo := f } := rfl
@[simp] theorem State.enterFault_mem (s : State) (c : Cause) (p w f : Word) :
    (s.enterFault c p w f).mem = s.mem := rfl
@[simp] theorem State.enterFault_halted (s : State) (c : Cause) (p w f : Word) :
    (s.enterFault c p w f).halted = decide (c ≠ .none) := rfl

/-- Everything the fault entry does: FAULT, PC and AWAIT are written, nothing else (60_exceptions.md R302). -/
theorem State.enterFault_eq (s : State) (c : Cause) (p w f : Word) :
    s.enterFault c p w f = { s with pc := p, await := false, fault := { cause := c, fpc := p, fword := w, finfo := f } } :=
  rfl

theorem State.halted_iff (s : State) : s.halted = true ↔ s.fault.cause ≠ .none := by
  simp [State.halted]

theorem State.not_halted_iff (s : State) : s.halted = false ↔ s.fault.cause = .none := by
  simp [State.halted]

/-! ### The fetch -/

theorem State.fetch_ok (s : State) (h : s.pc.toNat + 1 ≤ 0xFFF) : s.fetch = .ok s.wordAtPc := by
  have hr : ∀ k, k < 2 → s.pc.toNat + k ≤ 0xFFF := by omega
  simp [State.fetch, Memory.readRange_ok _ hr, State.wordAtPc, wordOfBytes, Memory.bytesAt_succ]

theorem State.fetch_error (s : State) (h : 0xFFF < s.pc.toNat + 1) :
    s.fetch = .error (if 0xFFF < s.pc.toNat then s.pc else 0x1000#16) := by
  rw [State.fetch, Memory.readRange_error _ (by decide) (by simpa using h)]
  by_cases hp : 0xFFF < s.pc.toNat
  · simp [infoOfAddr, hp]
  · simp [infoOfAddr, hp]

/-- Everything the fetch can answer. -/
theorem State.fetch_cases (s : State) :
    (s.fetch = .ok s.wordAtPc ∧ s.pc.toNat + 1 ≤ 0xFFF) ∨
    (s.fetch = .error (if 0xFFF < s.pc.toNat then s.pc else 0x1000#16) ∧ 0xFFF < s.pc.toNat + 1) := by
  by_cases h : s.pc.toNat + 1 ≤ 0xFFF
  · exact .inl ⟨s.fetch_ok h, h⟩
  · exact .inr ⟨s.fetch_error (by omega), by omega⟩

end Sys2Proof.Machine
end

