-- ==== Sys2Proof/Laws/Host.lean ====
section
/-! SUPPORT. What the Initializer with a given FONT leaves, and what Load and Restore can do. -/

namespace Sys2Proof.Machine

/-- State.reset is the state after the Initializer with the default FONT. -/
theorem State.initial_defaultFont : State.initial Config.defaultFont = State.reset := by
  have h : Memory.putBytes [] Config.fontBase Config.defaultFont.toList = [] := by decide
  rw [State.initial, h]
  rfl

/-- The whole of memory after the Initializer, for any FONT: the default bytes are all written over. -/
theorem State.initial_byteAt (font : Config.Font) (a : Nat) :
    (State.initial font).mem.byteAt a =
      if h : 0x50 ≤ a ∧ a < 0xA0 then font[a - 0x50]'(by show a - 0x50 < 80; omega) else 0x00#8 := by
  have hl : font.toList.length = 80 := by simp [Config.fontSize]
  rw [State.initial, State.setMem_mem, Memory.byteAt_putBytes rfl (by rw [hl]; decide), hl]
  by_cases h : 0x50 ≤ a ∧ a < 0xA0
  · have ha : Config.fontBase ≤ a ∧ a < Config.fontBase + 80 := h
    rw [if_pos ha, dif_pos h]
    simp only [Config.fontBase]
    rw [List.getD_eq_getElem _ _ (by rw [hl]; omega), Vector.getElem_toList]
  · have ha : ¬(Config.fontBase ≤ a ∧ a < Config.fontBase + 80) := h
    rw [if_neg ha, dif_neg h]
    simp only [Memory.byteAt, resetByte]
    split
    · rename_i hf
      have hd : Config.defaultFontBytes.length = 80 := by decide
      have hf' : 0x50 ≤ a := hf
      rw [List.getD_eq_default]
      rw [hd]
      show 80 ≤ a - 0x50
      omega
    · rfl

/-- The Initializer leaves memory in canonical form. -/
theorem State.initial_mem_wf (font : Config.Font) : (State.initial font).mem.wf = true :=
  Memory.putBytes_wf rfl (by simp [Config.fontSize, Config.fontBase])

@[simp] theorem hostInit_mem (font : Config.Font) (s : State) : (hostInit font s).mem = (State.initial font).mem := rfl
@[simp] theorem hostInit_draws (font : Config.Font) (s : State) : (hostInit font s).draws = s.draws := rfl

/-- Everything Load can do. -/
theorem hostLoad_cases (rom : List Byte) (s : State) :
    (3584 < rom.length ∧ hostLoad rom s = (s, some .capacity)) ∨
    (rom.length ≤ 3584 ∧ hostLoad rom s = (s.setMem (s.mem.putBytes 0x200 rom), none)) := by
  by_cases h : Config.romMax < rom.length
  · exact .inl ⟨h, by rw [hostLoad, if_pos h]⟩
  · exact .inr ⟨Nat.le_of_not_lt h, by rw [hostLoad, if_neg h]⟩

/-- The word at PC is an Fx0A, said by the decoder. -/
theorem State.atKeyWait_iff (s : State) :
    s.atKeyWait = true ↔ s.pc.toNat + 1 ≤ 0xFFF ∧ ∃ x, decode s.wordAtPc = .instr (.ldVxK x) := by
  unfold State.atKeyWait
  rcases s.fetch_cases with ⟨h, hp⟩ | ⟨h, hp⟩
  · simp only [h]
    constructor
    · intro hk
      refine ⟨hp, ?_⟩
      split at hk
      · rename_i x hd
        exact ⟨x, hd⟩
      · cases hk
    · rintro ⟨-, x, hd⟩
      simp [hd]
  · simp only [h]
    constructor
    · intro hk
      cases hk
    · rintro ⟨h', -⟩
      omega

/-- What a state that Restore accepts is: canonical memory and 10_state.md R37. -/
theorem State.consistent_iff (s : State) :
    s.consistent = true ↔ s.mem.wf = true ∧ (s.await = true →
      s.fault.cause = .none ∧ s.pc.toNat + 1 ≤ 0xFFF ∧ ∃ x, decode s.wordAtPc = .instr (.ldVxK x)) := by
  rw [← s.atKeyWait_iff, ← s.not_halted_iff]
  unfold State.consistent
  cases s.mem.wf <;> cases s.await <;> cases s.halted <;> cases s.atKeyWait <;> decide

/-- Everything Restore can do. -/
theorem hostRestore_cases (snap s : State) :
    (snap.consistent = true ∧ hostRestore snap s = (snap.setDraws s.draws, none)) ∨
    (snap.consistent = false ∧ hostRestore snap s = (s, some .inconsistentState)) := by
  cases h : snap.consistent
  · exact .inr ⟨rfl, by rw [hostRestore, h]; rfl⟩
  · exact .inl ⟨rfl, by rw [hostRestore, h]; rfl⟩

end Sys2Proof.Machine
end

