-- ==== Sys2Proof/Laws/PerInstr.lean ====
section
/-! SUPPORT. Families of statements made for every instruction, one lemma per constructor. -/

namespace Sys2Proof.Laws.EncodeInRow

/-- The encoded word of an instruction matches the opcode table's row of that instruction, and that row is one of
the table's (30_encoding.md R75, R76). -/
def Statement (i : Instr) : Prop := i.row ∈ opcodeRows ∧ i.row.accepts (encode i) = true

/-! ### A word under the four masks of the table -/

theorem and_ones4 (a : BitVec 4) : a &&& 0xF#4 = a := BitVec.and_allOnes

theorem and_ones8 (k : BitVec 8) : k &&& 0xFF#8 = k := BitVec.and_allOnes

theorem mask_nnn (a : BitVec 4) (n : BitVec 12) : ((a ++ n : Word) &&& 0xF000#16) = (a ++ 0#12 : Word) :=
  (BitVec.and_append (x₁ := a) (x₂ := 0xF#4) (y₁ := n) (y₂ := 0#12)).trans (by rw [and_ones4, BitVec.and_zero])

theorem mask_x (a b : BitVec 4) : ((a ++ b : Byte) &&& 0xF0#8) = (a ++ 0#4 : Byte) :=
  (BitVec.and_append (x₁ := a) (x₂ := 0xF#4) (y₁ := b) (y₂ := 0#4)).trans (by rw [and_ones4, BitVec.and_zero])

theorem mask_xkk (a b : BitVec 4) (k : BitVec 8) :
    ((a ++ b ++ k : Word) &&& 0xF000#16) = (a ++ 0#4 ++ 0#8 : Word) :=
  (BitVec.and_append (x₁ := a ++ b) (x₂ := 0xF0#8) (y₁ := k) (y₂ := 0#8)).trans
    (by rw [mask_x, BitVec.and_zero])

theorem mask_xs8 (a b : BitVec 4) (k : BitVec 8) :
    ((a ++ b ++ k : Word) &&& 0xF0FF#16) = (a ++ 0#4 ++ k : Word) :=
  (BitVec.and_append (x₁ := a ++ b) (x₂ := 0xF0#8) (y₁ := k) (y₂ := 0xFF#8)).trans
    (by rw [mask_x, and_ones8])

theorem mask_xyn (a b c d : BitVec 4) :
    ((a ++ b ++ c ++ d : Word) &&& 0xF000#16) = (a ++ 0#4 ++ 0#4 ++ 0#4 : Word) :=
  (BitVec.and_append (x₁ := a ++ b ++ c) (x₂ := 0xF00#12) (y₁ := d) (y₂ := 0#4)).trans (by
    rw [BitVec.and_zero]
    exact congrArg (· ++ 0#4) ((BitVec.and_append (x₁ := a ++ b) (x₂ := 0xF0#8) (y₁ := c) (y₂ := 0#4)).trans
      (by rw [mask_x, BitVec.and_zero])))

theorem mask_xys (a b c d : BitVec 4) :
    ((a ++ b ++ c ++ d : Word) &&& 0xF00F#16) = (a ++ 0#4 ++ 0#4 ++ d : Word) :=
  (BitVec.and_append (x₁ := a ++ b ++ c) (x₂ := 0xF00#12) (y₁ := d) (y₂ := 0xF#4)).trans (by
    rw [and_ones4]
    exact congrArg (· ++ d) ((BitVec.and_append (x₁ := a ++ b) (x₂ := 0xF0#8) (y₁ := c) (y₂ := 0#4)).trans
      (by rw [mask_x, BitVec.and_zero])))

/-! ### The constructors -/

theorem cls : Statement .cls :=
  ⟨by simp [Instr.row, opcodeRows, rowsControl, rowsAlu, rowsIndexDisplay, rowsKeys, rowsF], by decide⟩

theorem ret : Statement .ret :=
  ⟨by simp [Instr.row, opcodeRows, rowsControl, rowsAlu, rowsIndexDisplay, rowsKeys, rowsF], by decide⟩

theorem jp (nnn : Addr12) : Statement (.jp nnn) :=
  ⟨by simp [Instr.row, opcodeRows, rowsControl, rowsAlu, rowsIndexDisplay, rowsKeys, rowsF], beq_iff_eq.2 (mask_nnn ..)⟩

theorem call (nnn : Addr12) : Statement (.call nnn) :=
  ⟨by simp [Instr.row, opcodeRows, rowsControl, rowsAlu, rowsIndexDisplay, rowsKeys, rowsF], beq_iff_eq.2 (mask_nnn ..)⟩

theorem seImm (x : RegIdx) (kk : Byte) : Statement (.seImm x kk) :=
  ⟨by simp [Instr.row, opcodeRows, rowsControl, rowsAlu, rowsIndexDisplay, rowsKeys, rowsF], beq_iff_eq.2 (mask_xkk ..)⟩

theorem sneImm (x : RegIdx) (kk : Byte) : Statement (.sneImm x kk) :=
  ⟨by simp [Instr.row, opcodeRows, rowsControl, rowsAlu, rowsIndexDisplay, rowsKeys, rowsF], beq_iff_eq.2 (mask_xkk ..)⟩

theorem seReg (x y : RegIdx) : Statement (.seReg x y) :=
  ⟨by simp [Instr.row, opcodeRows, rowsControl, rowsAlu, rowsIndexDisplay, rowsKeys, rowsF], beq_iff_eq.2 (mask_xys ..)⟩

theorem ldImm (x : RegIdx) (kk : Byte) : Statement (.ldImm x kk) :=
  ⟨by simp [Instr.row, opcodeRows, rowsControl, rowsAlu, rowsIndexDisplay, rowsKeys, rowsF], beq_iff_eq.2 (mask_xkk ..)⟩

theorem addImm (x : RegIdx) (kk : Byte) : Statement (.addImm x kk) :=
  ⟨by simp [Instr.row, opcodeRows, rowsControl, rowsAlu, rowsIndexDisplay, rowsKeys, rowsF], beq_iff_eq.2 (mask_xkk ..)⟩

theorem ldReg (x y : RegIdx) : Statement (.ldReg x y) :=
  ⟨by simp [Instr.row, opcodeRows, rowsControl, rowsAlu, rowsIndexDisplay, rowsKeys, rowsF], beq_iff_eq.2 (mask_xys ..)⟩

theorem orReg (x y : RegIdx) : Statement (.orReg x y) :=
  ⟨by simp [Instr.row, opcodeRows, rowsControl, rowsAlu, rowsIndexDisplay, rowsKeys, rowsF], beq_iff_eq.2 (mask_xys ..)⟩

theorem andReg (x y : RegIdx) : Statement (.andReg x y) :=
  ⟨by simp [Instr.row, opcodeRows, rowsControl, rowsAlu, rowsIndexDisplay, rowsKeys, rowsF], beq_iff_eq.2 (mask_xys ..)⟩

theorem xorReg (x y : RegIdx) : Statement (.xorReg x y) :=
  ⟨by simp [Instr.row, opcodeRows, rowsControl, rowsAlu, rowsIndexDisplay, rowsKeys, rowsF], beq_iff_eq.2 (mask_xys ..)⟩

theorem addReg (x y : RegIdx) : Statement (.addReg x y) :=
  ⟨by simp [Instr.row, opcodeRows, rowsControl, rowsAlu, rowsIndexDisplay, rowsKeys, rowsF], beq_iff_eq.2 (mask_xys ..)⟩

theorem subReg (x y : RegIdx) : Statement (.subReg x y) :=
  ⟨by simp [Instr.row, opcodeRows, rowsControl, rowsAlu, rowsIndexDisplay, rowsKeys, rowsF], beq_iff_eq.2 (mask_xys ..)⟩

theorem shr (x y : RegIdx) : Statement (.shr x y) :=
  ⟨by simp [Instr.row, opcodeRows, rowsControl, rowsAlu, rowsIndexDisplay, rowsKeys, rowsF], beq_iff_eq.2 (mask_xys ..)⟩

theorem subnReg (x y : RegIdx) : Statement (.subnReg x y) :=
  ⟨by simp [Instr.row, opcodeRows, rowsControl, rowsAlu, rowsIndexDisplay, rowsKeys, rowsF], beq_iff_eq.2 (mask_xys ..)⟩

theorem shl (x y : RegIdx) : Statement (.shl x y) :=
  ⟨by simp [Instr.row, opcodeRows, rowsControl, rowsAlu, rowsIndexDisplay, rowsKeys, rowsF], beq_iff_eq.2 (mask_xys ..)⟩

theorem sneReg (x y : RegIdx) : Statement (.sneReg x y) :=
  ⟨by simp [Instr.row, opcodeRows, rowsControl, rowsAlu, rowsIndexDisplay, rowsKeys, rowsF], beq_iff_eq.2 (mask_xys ..)⟩

theorem ldI (nnn : Addr12) : Statement (.ldI nnn) :=
  ⟨by simp [Instr.row, opcodeRows, rowsControl, rowsAlu, rowsIndexDisplay, rowsKeys, rowsF], beq_iff_eq.2 (mask_nnn ..)⟩

theorem jpV0 (nnn : Addr12) : Statement (.jpV0 nnn) :=
  ⟨by simp [Instr.row, opcodeRows, rowsControl, rowsAlu, rowsIndexDisplay, rowsKeys, rowsF], beq_iff_eq.2 (mask_nnn ..)⟩

theorem rnd (x : RegIdx) (kk : Byte) : Statement (.rnd x kk) :=
  ⟨by simp [Instr.row, opcodeRows, rowsControl, rowsAlu, rowsIndexDisplay, rowsKeys, rowsF], beq_iff_eq.2 (mask_xkk ..)⟩

theorem drw (x y : RegIdx) (n : Count) : Statement (.drw x y n) :=
  ⟨by simp [Instr.row, opcodeRows, rowsControl, rowsAlu, rowsIndexDisplay, rowsKeys, rowsF], beq_iff_eq.2 (mask_xyn ..)⟩

theorem skp (x : RegIdx) : Statement (.skp x) :=
  ⟨by simp [Instr.row, opcodeRows, rowsControl, rowsAlu, rowsIndexDisplay, rowsKeys, rowsF], beq_iff_eq.2 (mask_xs8 ..)⟩

theorem sknp (x : RegIdx) : Statement (.sknp x) :=
  ⟨by simp [Instr.row, opcodeRows, rowsControl, rowsAlu, rowsIndexDisplay, rowsKeys, rowsF], beq_iff_eq.2 (mask_xs8 ..)⟩

theorem ldVxDT (x : RegIdx) : Statement (.ldVxDT x) :=
  ⟨by simp [Instr.row, opcodeRows, rowsControl, rowsAlu, rowsIndexDisplay, rowsKeys, rowsF], beq_iff_eq.2 (mask_xs8 ..)⟩

theorem ldVxK (x : RegIdx) : Statement (.ldVxK x) :=
  ⟨by simp [Instr.row, opcodeRows, rowsControl, rowsAlu, rowsIndexDisplay, rowsKeys, rowsF], beq_iff_eq.2 (mask_xs8 ..)⟩

theorem ldDTVx (x : RegIdx) : Statement (.ldDTVx x) :=
  ⟨by simp [Instr.row, opcodeRows, rowsControl, rowsAlu, rowsIndexDisplay, rowsKeys, rowsF], beq_iff_eq.2 (mask_xs8 ..)⟩

theorem ldSTVx (x : RegIdx) : Statement (.ldSTVx x) :=
  ⟨by simp [Instr.row, opcodeRows, rowsControl, rowsAlu, rowsIndexDisplay, rowsKeys, rowsF], beq_iff_eq.2 (mask_xs8 ..)⟩

theorem addIVx (x : RegIdx) : Statement (.addIVx x) :=
  ⟨by simp [Instr.row, opcodeRows, rowsControl, rowsAlu, rowsIndexDisplay, rowsKeys, rowsF], beq_iff_eq.2 (mask_xs8 ..)⟩

theorem ldFVx (x : RegIdx) : Statement (.ldFVx x) :=
  ⟨by simp [Instr.row, opcodeRows, rowsControl, rowsAlu, rowsIndexDisplay, rowsKeys, rowsF], beq_iff_eq.2 (mask_xs8 ..)⟩

theorem ldBVx (x : RegIdx) : Statement (.ldBVx x) :=
  ⟨by simp [Instr.row, opcodeRows, rowsControl, rowsAlu, rowsIndexDisplay, rowsKeys, rowsF], beq_iff_eq.2 (mask_xs8 ..)⟩

theorem storeV (x : RegIdx) : Statement (.storeV x) :=
  ⟨by simp [Instr.row, opcodeRows, rowsControl, rowsAlu, rowsIndexDisplay, rowsKeys, rowsF], beq_iff_eq.2 (mask_xs8 ..)⟩

theorem loadV (x : RegIdx) : Statement (.loadV x) :=
  ⟨by simp [Instr.row, opcodeRows, rowsControl, rowsAlu, rowsIndexDisplay, rowsKeys, rowsF], beq_iff_eq.2 (mask_xs8 ..)⟩

end Sys2Proof.Laws.EncodeInRow
end

