-- ==== Sys2Proof/Laws/Step.lean ====
section
/-! SUPPORT. What a cycle can do, said once; the timer tick; memory's canonical form kept by the execute step; and the word placed for the next fetch. -/

namespace Sys2Proof.Machine

/-- Everything a step can do: nothing when halted, a fetch fault, or the fetched word executed and the cycle ended
(40_cycle.md R118). -/
theorem step_cases (s : State) :
    (s.halted = true ∧ step s = .next s) ∨
    (s.halted = false ∧ 0xFFF < s.pc.toNat + 1 ∧
      step s = .next (s.enterFault .fetchOob s.pc 0x0000#16 (if 0xFFF < s.pc.toNat then s.pc else 0x1000#16))) ∨
    (s.fetches ∧ step s = endOutcome (execWord s.wordAtPc s.beginCycle)) := by
  by_cases hh : s.halted = true
  · exact .inl ⟨hh, by rw [step, cycle, if_pos hh]⟩
  · have hf : s.halted = false := by simpa using hh
    rcases s.fetch_cases with ⟨h, hp⟩ | ⟨h, hp⟩
    · exact .inr (.inr ⟨⟨hf, hp⟩, by rw [step, cycle, if_neg hh, h]⟩)
    · exact .inr (.inl ⟨hf, hp, by rw [step, cycle, if_neg hh, h]⟩)

theorem execWord_instr {w : Word} {i : Instr} (h : decode w = .instr i) (s : State) :
    execWord w s = exec i s := by
  rw [execWord, h]

theorem execWord_unmapped {w u : Word} (h : decode w = .unmapped u) (s : State) : execWord w s = .next s := by
  rw [execWord, h]

/-! ### The ends of a cycle -/

theorem State.beginCycle_eq (s : State) : s.beginCycle = s.advanced := rfl

@[simp] theorem State.advanced_mem (s : State) : s.advanced.mem = s.mem := rfl
@[simp] theorem State.advanced_pc (s : State) : s.advanced.pc = s.pc + 2#16 := rfl
@[simp] theorem State.advanced_await (s : State) : s.advanced.await = false := rfl
@[simp] theorem State.advanced_fault (s : State) : s.advanced.fault = s.fault := rfl
@[simp] theorem State.advanced_halted (s : State) : s.advanced.halted = s.halted := rfl
@[simp] theorem State.advanced_getV (s : State) (r : RegIdx) : s.advanced.getV r = s.getV r := rfl

/-- A timer falls by one while nonzero and stays at 0 (10_state.md R29). -/
theorem tickDown_toNat (b : Byte) : (tickDown b).toNat = b.toNat - 1 := by
  unfold tickDown
  split
  · rename_i h
    simp [h]
  · rename_i h
    have h0 : b.toNat ≠ 0 := fun e => h (BitVec.eq_of_toNat_eq e)
    have hb : b.toNat < 256 := b.isLt
    rw [BitVec.toNat_sub]
    simp
    omega

theorem State.tick_eq (s : State) : s.tick = s.ticked := by
  have h : ∀ b : Byte, tickDown b = if b.toNat > 0 then b - 1 else b := by
    intro b
    unfold tickDown
    by_cases hb : b = 0x00#8
    · simp [hb]
    · have h0 : b.toNat ≠ 0 := fun e => hb (BitVec.eq_of_toNat_eq e)
      rw [if_neg hb, if_pos (by omega)]
      rfl
  simp [State.tick, State.ticked, State.setDT, State.setST, h]

theorem State.endCycle_running {s : State} (h : s.halted = false) : s.endCycle = s.ticked := by
  rw [State.endCycle, h, State.tick_eq]
  rfl

theorem State.endCycle_faulted {s : State} (h : s.halted = true) : s.endCycle = s := by
  rw [State.endCycle, h]
  rfl

@[simp] theorem State.endCycle_mem (s : State) : s.endCycle.mem = s.mem := by
  unfold State.endCycle
  split <;> rfl

@[simp] theorem State.endCycle_pc (s : State) : s.endCycle.pc = s.pc := by
  unfold State.endCycle
  split <;> rfl

@[simp] theorem State.endCycle_await (s : State) : s.endCycle.await = s.await := by
  unfold State.endCycle
  split <;> rfl

@[simp] theorem State.endCycle_fault (s : State) : s.endCycle.fault = s.fault := by
  unfold State.endCycle
  split <;> rfl

/-! ### Memory through the execute step -/

@[simp] theorem State.skipIf_mem (s : State) (c : Bool) : (s.skipIf c).mem = s.mem := by
  unfold State.skipIf
  split <;> rfl

theorem storeAtI_wf {i : Instr} {bs : List Byte} {s t : State} (hw : s.mem.wf = true)
    (h : storeAtI i bs s = .next t) : t.mem.wf = true := by
  unfold storeAtI at h
  cases hr : s.mem.writeRange (s.effAddr 0) bs with
  | error e =>
    rw [hr] at h
    cases h
    exact hw
  | ok m =>
    rw [hr] at h
    cases h
    exact Memory.writeRange_wf hw hr

/-- The execute step keeps the canonical form of memory. -/
theorem exec_mem_wf {i : Instr} {s t : State} (hw : s.mem.wf = true) (h : exec i s = .next t) :
    t.mem.wf = true := by
  cases i with
  | ldBVx x => exact storeAtI_wf hw h
  | storeV x => exact storeAtI_wf hw h
  | ret =>
    by_cases hp : 0 < s.sp.val
    · simp only [exec, execRet, s.pop_some hp] at h
      cases h
      exact hw
    · simp only [exec, execRet, s.pop_empty (by omega)] at h
      cases h
      exact hw
  | call nnn =>
    by_cases hp : s.sp.val < 16
    · simp only [exec, execCall, s.push_room _ hp] at h
      cases h
      exact hw
    · have := s.sp.isLt
      simp only [exec, execCall, s.push_full _ (by omega)] at h
      cases h
      exact hw
  | loadV x =>
    simp only [exec, execLoadV] at h
    split at h <;> (cases h; exact hw)
  | drw x y n =>
    simp only [exec, execDrw] at h
    split at h <;> (cases h; exact hw)
  | ldVxK x =>
    simp only [exec, execLdVxK] at h
    split at h <;> (cases h; exact hw)
  | skp x =>
    simp only [exec, execSkp, skipOnKey] at h
    split at h
    · cases h
      exact hw
    · cases h
      simpa using hw
  | sknp x =>
    simp only [exec, execSknp, skipOnKey] at h
    split at h
    · cases h
      exact hw
    · cases h
      simpa using hw
  | seImm x kk => cases h; simpa using hw
  | sneImm x kk => cases h; simpa using hw
  | seReg x y => cases h; simpa using hw
  | sneReg x y => cases h; simpa using hw
  | _ => cases h; exact hw

/-! ### The word placed for the next fetch -/

/-- After a word has been placed, the core is not halted and its fetch reads that word. -/
theorem State.placeWord_fetch (s : State) (hw : s.mem.wf = true) (w : Word) :
    (s.placeWord w).halted = false ∧ (s.placeWord w).fetch = .ok w := by
  have key : ∀ u : State, u.mem.wf = true → u.pc.toNat < 0xFFF → u.halted = false →
      (u.setMem (u.mem.putBytes u.pc.toNat [hiByte w, loByte w])).halted = false ∧
      (u.setMem (u.mem.putBytes u.pc.toNat [hiByte w, loByte w])).fetch = .ok w := by
    intro u hu hp hh
    refine ⟨hh, ?_⟩
    rw [State.fetch_ok _ (by simp; omega), State.wordAtPc]
    simp only [State.setMem_mem, State.setMem_pc]
    rw [Memory.byteAt_putBytes hu (by simp; omega), Memory.byteAt_putBytes hu (by simp; omega)]
    have h1 : u.pc.toNat ≤ u.pc.toNat ∧ u.pc.toNat < u.pc.toNat + [hiByte w, loByte w].length := by simp
    have h2 : u.pc.toNat ≤ u.pc.toNat + 1 ∧ u.pc.toNat + 1 < u.pc.toNat + [hiByte w, loByte w].length := by simp
    rw [if_pos h1, if_pos h2]
    have h3 : u.pc.toNat + 1 - u.pc.toNat = 1 := by omega
    simp only [Nat.sub_self, h3, List.getD_cons_zero, List.getD_cons_succ]
    exact congrArg _ (word_of_halves w)
  unfold State.placeWord
  by_cases hp : s.pc.toNat < 0xFFF
  · by_cases hh : s.halted = true
    · simp only [hp, hh, if_true]
      exact key _ hw hp rfl
    · simp only [hp, hh, if_true]
      exact key _ hw hp (by simpa using hh)
  · by_cases hh : s.halted = true
    · simp only [hp, hh, if_false, State.setPc_halted, if_true]
      exact key _ hw (by simp) rfl
    · simp only [hp, hh, if_false, State.setPc_halted]
      exact key _ hw (by simp) (by simpa using hh)

end Sys2Proof.Machine
end

