-- ==== Sys2Proof/Tests/Slice0.lean ====
section
/-! SUPPORT. Tests: words written out from 30_encoding.md, one-step vectors from 95_test_vectors.md (ids in the comments), and witnesses that the hypotheses of the obligations can be met. -/

namespace Sys2Proof.Tests

open Sys2Proof.Machine

/-! ### Helpers -/

/-- The next state an outcome holds, if it holds one. -/
def result : Host.Outcome State Fault Refusal → Option State
  | .next t => some t
  | _ => none

/-- The state after one cycle, if the cycle answers a next state. -/
def after (s : State) : Option State := result (step s)

/-- The state of an outcome that answers a next state. -/
def stateOf (o : Host.Outcome State Fault Refusal) : State := (result o).getD State.reset

/-- An outcome that holds a next state is that next state. -/
theorem answers {o : Host.Outcome State Fault Refusal} (h : (result o).isSome = true) : o = .next (stateOf o) := by
  cases o with
  | next t => rfl
  | fault f => cases f
  | refused r => cases h

/-- The launch state with PC = a and the bytes hi, lo at a and a + 1. -/
def start (a : Word) (hi lo : Byte) : State :=
  { State.reset with pc := a, mem := Memory.put (Memory.put [] a.toNat hi) (a.toNat + 1) lo }

/-- s with the byte b at address a as well. -/
def withByte (s : State) (a : Nat) (b : Byte) : State := { s with mem := Memory.put s.mem a b }

/-- s with I = w. -/
def withI (s : State) (w : Word) : State := { s with i := w }

/-- s with key k pressed. -/
def withKey (s : State) (k : Fin 16) : State := { s with key := s.key.set k.val true }

/-- s with pixel (px, py) on. -/
def withPixel (s : State) (px : Fin 64) (py : Fin 32) : State :=
  { s with pix := s.pix.set px.val ((s.pix[px.val]).set py.val true) }

/-- s with the timers DT and ST as given. -/
def withTimers (s : State) (dt st : Byte) : State := { s with dt := dt, st := st }

/-- s with SP = n and the word w in slot n - 1. -/
def withStack (s : State) (n : Fin 17) (w : Word) : State :=
  { s with sp := n, stack := s.stack.setIfInBounds (n.val - 1) w }

/-- The fields of FAULT with the cause as its code, in the order of the vectors. -/
def faultFields (s : State) : BitVec 3 × Word × Word × Word :=
  (s.fault.cause.code, s.fault.fpc, s.fault.fword, s.fault.finfo)

/-! ### WellFormed: an ill-formed word for each check, and the words beside it that pass -/

theorem smoke_op0 : wordWellFormed 0x00E1#16 = false ∧ wordWellFormed 0x0123#16 = false ∧
    wordWellFormed 0x00E0#16 = true ∧ wordWellFormed 0x00EE#16 = true := by decide

theorem smoke_op5 : wordWellFormed 0x5121#16 = false ∧ wordWellFormed 0x5120#16 = true := by decide

theorem smoke_op8 : wordWellFormed 0x8128#16 = false ∧ wordWellFormed 0x812F#16 = false ∧
    wordWellFormed 0x8127#16 = true ∧ wordWellFormed 0x812E#16 = true := by decide

theorem smoke_op9 : wordWellFormed 0x9121#16 = false ∧ wordWellFormed 0x9120#16 = true := by decide

theorem smoke_opE : wordWellFormed 0xE19F#16 = false ∧ wordWellFormed 0xE19E#16 = true := by decide

theorem smoke_opF : wordWellFormed 0xF10B#16 = false ∧ wordWellFormed 0xF10A#16 = true := by decide

/-! ### Decoding: a word of every constructor, written from its pattern in 30_encoding.md R76 -/

theorem test_decode_control :
    decode 0x00E0#16 = .instr .cls ∧ decode 0x00EE#16 = .instr .ret ∧ decode 0x1ABC#16 = .instr (.jp 0xABC#12) ∧
    decode 0x2210#16 = .instr (.call 0x210#12) ∧ decode 0xB3F1#16 = .instr (.jpV0 0x3F1#12) := by decide

theorem test_decode_skips :
    decode 0x31A5#16 = .instr (.seImm 0x1#4 0xA5#8) ∧ decode 0x42F0#16 = .instr (.sneImm 0x2#4 0xF0#8) ∧
    decode 0x5340#16 = .instr (.seReg 0x3#4 0x4#4) ∧ decode 0x9670#16 = .instr (.sneReg 0x6#4 0x7#4) := by decide

theorem test_decode_immediates :
    decode 0x6FAB#16 = .instr (.ldImm 0xF#4 0xAB#8) ∧ decode 0x7201#16 = .instr (.addImm 0x2#4 0x01#8) ∧
    decode 0xA22A#16 = .instr (.ldI 0x22A#12) ∧ decode 0xC30F#16 = .instr (.rnd 0x3#4 0x0F#8) ∧
    decode 0xD12E#16 = .instr (.drw 0x1#4 0x2#4 0xE#4) := by decide

theorem test_decode_op8 :
    decode 0x8120#16 = .instr (.ldReg 0x1#4 0x2#4) ∧ decode 0x8121#16 = .instr (.orReg 0x1#4 0x2#4) ∧
    decode 0x8122#16 = .instr (.andReg 0x1#4 0x2#4) ∧ decode 0x8123#16 = .instr (.xorReg 0x1#4 0x2#4) ∧
    decode 0x8124#16 = .instr (.addReg 0x1#4 0x2#4) ∧ decode 0x8125#16 = .instr (.subReg 0x1#4 0x2#4) ∧
    decode 0x8126#16 = .instr (.shr 0x1#4 0x2#4) ∧ decode 0x8127#16 = .instr (.subnReg 0x1#4 0x2#4) ∧
    decode 0x812E#16 = .instr (.shl 0x1#4 0x2#4) := by decide

theorem test_decode_keys_timers :
    decode 0xE19E#16 = .instr (.skp 0x1#4) ∧ decode 0xE2A1#16 = .instr (.sknp 0x2#4) ∧
    decode 0xF307#16 = .instr (.ldVxDT 0x3#4) ∧ decode 0xF40A#16 = .instr (.ldVxK 0x4#4) ∧
    decode 0xF515#16 = .instr (.ldDTVx 0x5#4) ∧ decode 0xF618#16 = .instr (.ldSTVx 0x6#4) := by decide

theorem test_decode_index :
    decode 0xF71E#16 = .instr (.addIVx 0x7#4) ∧ decode 0xF829#16 = .instr (.ldFVx 0x8#4) ∧
    decode 0xF933#16 = .instr (.ldBVx 0x9#4) ∧ decode 0xFA55#16 = .instr (.storeV 0xA#4) ∧
    decode 0xFB65#16 = .instr (.loadV 0xB#4) := by decide

/-- CY-2, CY-3. -/
theorem test_decode_unmapped :
    [0x5121#16, 0x8128#16, 0x812F#16, 0x9121#16, 0xE100#16, 0xE19F#16, 0xF100#16, 0xF10B#16, 0x0123#16, 0x0FFF#16].all
      (fun w => decode w == .unmapped w) = true := by decide

theorem test_decode_bytes_big_endian : decodeBytes 0xD0#8 0x1F#8 = .instr (.drw 0x0#4 0x1#4 0xF#4) := by decide

theorem test_table_word : decodeTableWord 16 0x8124 = some (.addReg 0x1#4 0x2#4) ∧ decodeTableWord 16 0x5121 = none := by
  decide

theorem test_encode : encode (.call 0x210#12) = 0x2210#16 ∧ encode (.subReg 0x1#4 0xF#4) = 0x81F5#16 ∧
    encode (.drw 0x0#4 0x1#4 0xF#4) = 0xD01F#16 ∧ encode (.loadV 0x3#4) = 0xF365#16 := by decide

/-! ### The cycle -/

/-- CY-1: 0x0000 is a no-op, the timer ticks. -/
theorem test_cycle_unmapped :
    (after (withTimers (start 0x200#16 0x00#8 0x00#8) 3#8 0#8)).map (fun t => (t.pc, t.dt, t.st)) =
      some (0x202#16, 2#8, 0#8) := by decide

/-- CY-4: the word at 0xFFE is fetched and executed. -/
theorem test_cycle_top :
    (after (start 0xFFE#16 0x61#8 0x23#8)).map (fun t => (t.getV 0x1#4, t.pc, t.fault.cause)) =
      some (0x23#8, 0x1000#16, .none) := by decide

/-- CY-5. -/
theorem test_cycle_fetch_fault :
    (after (withTimers (start 0x1000#16 0x00#8 0x00#8) 4#8 0#8)).map (fun t => (faultFields t, t.pc, t.dt)) =
      some ((1#3, 0x1000#16, 0x0000#16, 0x1000#16), 0x1000#16, 4#8) := by decide

/-- CY-6. -/
theorem test_cycle_fetch_fault_low :
    (after (start 0xFFF#16 0x12#8 0x00#8)).map faultFields = some (1#3, 0x0FFF#16, 0x0000#16, 0x1000#16) := by decide

/-- CF-17, second step. -/
theorem test_cycle_fetch_fault_above :
    (after (start 0x10FE#16 0x00#8 0x00#8)).map faultFields = some (1#3, 0x10FE#16, 0x0000#16, 0x10FE#16) := by decide

/-- CY-8: an odd PC is legal. -/
theorem test_cycle_odd :
    (after (start 0x201#16 0x60#8 0x05#8)).map (fun t => (t.getV 0x0#4, t.pc)) = some (0x05#8, 0x203#16) := by decide

/-! ### Control transfer -/

/-- CF-1. -/
theorem test_ret_underflow :
    (after (start 0x200#16 0x00#8 0xEE#8)).map (fun t => (faultFields t, t.pc, t.sp)) =
      some ((4#3, 0x200#16, 0x00EE#16, 0#16), 0x200#16, 0) := by decide

/-- CF-2. -/
theorem test_ret_pops :
    (after (withStack (start 0x200#16 0x00#8 0xEE#8) 2 0x300#16)).map (fun t => (t.pc, t.sp, t.stack[1])) =
      some (0x300#16, 1, 0x300#16) := by decide

/-- CF-3. -/
theorem test_jp : (after (start 0x200#16 0x1A#8 0xBC#8)).map (fun t => t.pc) = some 0xABC#16 := by decide

/-- CF-6: the last free slot. -/
theorem test_call_last_slot :
    (after (withStack (start 0x300#16 0x24#8 0x00#8) 15 0#16)).map (fun t => (t.stack[15], t.sp, t.pc)) =
      some (0x302#16, 16, 0x400#16) := by decide

/-- CF-7. -/
theorem test_call_overflow :
    (after (withStack (start 0x300#16 0x24#8 0x00#8) 16 0#16)).map (fun t => (faultFields t, t.pc, t.sp)) =
      some ((3#3, 0x300#16, 0x2400#16, 16#16), 0x300#16, 16) := by decide

/-- CF-9. -/
theorem test_seImm_taken : (after (start 0x20A#16 0x31#8 0x00#8)).map (fun t => t.pc) = some 0x20E#16 := by decide

/-- CF-10. -/
theorem test_seImm_not_taken :
    (after ((start 0x20A#16 0x31#8 0x00#8).setV 0x1#4 0x01#8)).map (fun t => t.pc) = some 0x20C#16 := by decide

/-- CF-11. -/
theorem test_sneImm_not_taken :
    (after ((start 0x300#16 0x42#8 0x05#8).setV 0x2#4 0x05#8)).map (fun t => t.pc) = some 0x302#16 := by decide

/-- CF-11. -/
theorem test_sneImm_taken :
    (after ((start 0x300#16 0x42#8 0x06#8).setV 0x2#4 0x05#8)).map (fun t => t.pc) = some 0x304#16 := by decide

/-- CF-12: x = y. -/
theorem test_seReg_same :
    (after ((start 0x300#16 0x53#8 0x30#8).setV 0x3#4 0x11#8)).map (fun t => t.pc) = some 0x304#16 := by decide

/-- CF-14. -/
theorem test_seReg_differ :
    (after (((start 0x300#16 0x53#8 0x40#8).setV 0x3#4 1#8).setV 0x4#4 2#8)).map (fun t => t.pc) = some 0x302#16 := by
  decide

/-- CF-13: x = y. -/
theorem test_sneReg_same :
    (after ((start 0x300#16 0x93#8 0x30#8).setV 0x3#4 0x11#8)).map (fun t => t.pc) = some 0x302#16 := by decide

/-- CF-14. -/
theorem test_sneReg_differ :
    (after (((start 0x300#16 0x93#8 0x40#8).setV 0x3#4 1#8).setV 0x4#4 2#8)).map (fun t => t.pc) = some 0x304#16 := by
  decide

/-- CF-16: V[3] is not used. -/
theorem test_jpV0 :
    (after (((start 0x200#16 0xB3#8 0x00#8).setV 0x0#4 0x04#8).setV 0x3#4 0x09#8)).map (fun t => t.pc) =
      some 0x304#16 := by decide

/-- CF-17: not reduced to 12 bits. -/
theorem test_jpV0_above :
    (after ((start 0x200#16 0xBF#8 0xFF#8).setV 0x0#4 0xFF#8)).map (fun t => t.pc) = some 0x10FE#16 := by decide

/-! ### Register arithmetic and logic -/

/-- AL-1. -/
theorem test_ldImm : (after (start 0x200#16 0x6F#8 0xAB#8)).map (fun t => t.getV VF) = some 0xAB#8 := by decide

/-- AL-2: no carry flag. -/
theorem test_addImm_wraps :
    (after (((start 0x200#16 0x72#8 0x01#8).setV 0x2#4 0xFF#8).setV VF 0x55#8)).map
      (fun t => (t.getV 0x2#4, t.getV VF)) = some (0x00#8, 0x55#8) := by decide

/-- AL-4. -/
theorem test_ldReg :
    (after ((start 0x200#16 0x81#8 0x50#8).setV 0x5#4 0x42#8)).map (fun t => (t.getV 0x1#4, t.getV 0x5#4)) =
      some (0x42#8, 0x42#8) := by decide

/-- AL-5: VF is kept. -/
theorem test_orReg :
    (after ((((start 0x200#16 0x81#8 0x21#8).setV 0x1#4 0xF0#8).setV 0x2#4 0x0F#8).setV VF 0x55#8)).map
      (fun t => (t.getV 0x1#4, t.getV VF)) = some (0xFF#8, 0x55#8) := by decide

/-- AL-6. -/
theorem test_andReg :
    (after ((((start 0x200#16 0x81#8 0x22#8).setV 0x1#4 0xF0#8).setV 0x2#4 0x3C#8).setV VF 0x55#8)).map
      (fun t => (t.getV 0x1#4, t.getV VF)) = some (0x30#8, 0x55#8) := by decide

/-- AL-6. -/
theorem test_xorReg :
    (after ((((start 0x200#16 0x81#8 0x23#8).setV 0x1#4 0xF0#8).setV 0x2#4 0x3C#8).setV VF 0x55#8)).map
      (fun t => (t.getV 0x1#4, t.getV VF)) = some (0xCC#8, 0x55#8) := by decide

/-- L1-2. -/
theorem test_addReg_carry :
    (after (((start 0x200#16 0x81#8 0x24#8).setV 0x1#4 0xFF#8).setV 0x2#4 0x01#8)).map
      (fun t => (t.getV 0x1#4, t.getV VF)) = some (0x00#8, 0x01#8) := by decide

/-- AL-11: x = F, the sum is lost; with 0xFF + 0x01 the carry is 1. -/
theorem test_addReg_xF :
    (after (((start 0x200#16 0x8F#8 0x14#8).setV VF 0xFF#8).setV 0x1#4 0x01#8)).map (fun t => t.getV VF) =
      some 0x01#8 := by decide

/-- AL-16: x = F, the flag first, then (1 - 3) mod 256. -/
theorem test_subReg_xF :
    (after (((start 0x200#16 0x8F#8 0x25#8).setV VF 0x05#8).setV 0x2#4 0x03#8)).map (fun t => t.getV VF) =
      some 0xFE#8 := by decide

/-- AL-17: y = F, the result reads the flag just written. -/
theorem test_subReg_yF :
    (after (((start 0x200#16 0x81#8 0xF5#8).setV 0x1#4 0x05#8).setV VF 0x03#8)).map
      (fun t => (t.getV 0x1#4, t.getV VF)) = some (0x04#8, 0x01#8) := by decide

/-- AL-20: V[y] is ignored. -/
theorem test_shr :
    (after (((start 0x200#16 0x83#8 0xA6#8).setV 0x3#4 0x80#8).setV 0xA#4 0x01#8)).map
      (fun t => (t.getV 0x3#4, t.getV VF)) = some (0x40#8, 0x00#8) := by decide

/-- AL-21: x = F. -/
theorem test_shr_xF :
    (after ((start 0x200#16 0x8F#8 0x06#8).setV VF 0x03#8)).map (fun t => t.getV VF) = some 0x00#8 := by decide

/-- AL-22. -/
theorem test_subnReg :
    (after (((start 0x200#16 0x81#8 0x27#8).setV 0x1#4 0x05#8).setV 0x2#4 0x0A#8)).map
      (fun t => (t.getV 0x1#4, t.getV VF)) = some (0x05#8, 0x01#8) := by decide

/-- AL-26: y = F. -/
theorem test_subnReg_yF :
    (after (((start 0x200#16 0x81#8 0xF7#8).setV 0x1#4 0x03#8).setV VF 0x05#8)).map
      (fun t => (t.getV 0x1#4, t.getV VF)) = some (0xFE#8, 0x01#8) := by decide

/-- AL-27. -/
theorem test_shl :
    (after ((start 0x200#16 0x83#8 0x0E#8).setV 0x3#4 0x81#8)).map (fun t => (t.getV 0x3#4, t.getV VF)) =
      some (0x02#8, 0x01#8) := by decide

/-- AL-29: x = F. -/
theorem test_shl_xF :
    (after ((start 0x200#16 0x8F#8 0x0E#8).setV VF 0x80#8)).map (fun t => t.getV VF) = some 0x02#8 := by decide

/-- AL-30: the effect of the offered byte 0xA7. -/
theorem test_rnd_mask :
    (rndEffect 0xA7#8 0x3#4 0x0F#8 State.reset).getV 0x3#4 = 0x07#8 ∧
    (rndEffect 0xA7#8 0x3#4 0xFF#8 State.reset).getV 0x3#4 = 0xA7#8 := by decide

/-! ### The index register and memory transfer -/

/-- IM-1. -/
theorem test_ldI : (after (start 0x200#16 0xA1#8 0x23#8)).map (fun t => t.i) = some 0x123#16 := by decide

/-- IM-2: VF is kept, no fault. -/
theorem test_addIVx :
    (after (withI (((start 0x200#16 0xF1#8 0x1E#8).setV 0x1#4 0x01#8).setV VF 0x33#8) 0x0FFF#16)).map
      (fun t => (t.i, t.getV VF, t.fault.cause)) = some (0x1000#16, 0x33#8, .none) := by decide

/-- IM-3. -/
theorem test_addIVx_wraps :
    (after (withI ((start 0x200#16 0xF1#8 0x1E#8).setV 0x1#4 0x01#8) 0xFFFF#16)).map (fun t => t.i) =
      some 0x0000#16 := by decide

/-- IM-4. -/
theorem test_ldFVx :
    (after ((start 0x200#16 0xF0#8 0x29#8).setV 0x0#4 0x0F#8)).map (fun t => t.i) = some 0x09B#16 := by decide

/-- IM-4: V[x] above 0xF is not reduced. -/
theorem test_ldFVx_above :
    (after ((start 0x200#16 0xF0#8 0x29#8).setV 0x0#4 0xFF#8)).map (fun t => t.i) = some 0x54B#16 := by decide

/-- L1-4. -/
theorem test_ldBVx :
    (after (withI ((start 0x200#16 0xF3#8 0x33#8).setV 0x3#4 0xEA#8) 0x300#16)).map
      (fun t => (t.mem.bytesAt 0x300 4, t.i)) = some ([2#8, 3#8, 4#8, 0#8], 0x300#16) := by decide

/-- IM-7. -/
theorem test_ldBVx_oob :
    (after (withI ((start 0x300#16 0xF1#8 0x33#8).setV 0x1#4 123#8) 0xFFE#16)).map
      (fun t => (faultFields t, t.mem.bytesAt 0xFFE 2)) =
      some ((2#3, 0x300#16, 0xF133#16, 0x1000#16), [0#8, 0#8]) := by decide

/-- IM-9. -/
theorem test_storeV :
    (after (withI (((start 0x200#16 0xF0#8 0x55#8).setV 0x0#4 0xAA#8).setV 0x1#4 0xBB#8) 0x400#16)).map
      (fun t => (t.mem.bytesAt 0x400 2, t.i)) = some ([0xAA#8, 0x00#8], 0x400#16) := by decide

/-- IM-11. -/
theorem test_storeV_oob :
    (after (withI ((start 0x200#16 0xFF#8 0x55#8).setV 0x0#4 0xAA#8) 0xFF1#16)).map
      (fun t => (faultFields t, t.mem.byteAt 0xFF1)) = some ((2#3, 0x200#16, 0xFF55#16, 0x1000#16), 0#8) := by decide

/-- IM-13. -/
theorem test_loadV :
    (after (withI (withByte ((start 0x200#16 0xF0#8 0x65#8).setV 0x1#4 0x77#8) 0x400 0x12#8) 0x400#16)).map
      (fun t => (t.getV 0x0#4, t.getV 0x1#4, t.i)) = some (0x12#8, 0x77#8, 0x400#16) := by decide

/-- IM-14. -/
theorem test_loadV_oob :
    (after (withI (((start 0x200#16 0xF1#8 0x65#8).setV 0x0#4 5#8).setV 0x1#4 6#8) 0xFFF#16)).map
      (fun t => (t.fault.cause, t.fault.finfo, t.getV 0x0#4, t.getV 0x1#4)) =
      some (.memOob, 0x1000#16, 5#8, 6#8) := by decide

/-! ### The display -/

/-- DS-1. -/
theorem test_cls :
    (after (withPixel ((start 0x200#16 0x00#8 0xE0#8).setV VF 0x44#8) 5 6)).map
      (fun t => (t.pix.isOn 5 6, t.dirty, t.getV VF)) = some (false, true, 0x44#8) := by decide

/-- DS-5: clipped at the right edge, no wrap. -/
theorem test_drw_clips :
    (after (withI (withByte ((start 0x200#16 0xD0#8 0x11#8).setV 0x0#4 62#8) 0x300 0xFF#8) 0x300#16)).map
      (fun t => (t.pix.isOn 61 0, t.pix.isOn 62 0, t.pix.isOn 63 0, t.pix.isOn 0 0, t.pix.isOn 0 1, t.getV VF)) =
      some (false, true, true, false, false, 0#8) := by decide

/-- DS-8: collision. -/
theorem test_drw_collides :
    (after (withPixel (withI (withByte (start 0x200#16 0xD0#8 0x11#8) 0x300 0xC0#8) 0x300#16) 1 0)).map
      (fun t => (t.pix.isOn 0 0, t.pix.isOn 1 0, t.getV VF, t.dirty)) = some (true, false, 1#8, true) := by decide

/-! ### The keypad and the timers -/

/-- KT-1. -/
theorem test_skp :
    (after (withKey ((start 0x300#16 0xE1#8 0x9E#8).setV 0x1#4 5#8) 5)).map (fun t => t.pc) = some 0x304#16 := by decide

/-- KT-3. -/
theorem test_skp_range :
    (after ((start 0x300#16 0xE1#8 0x9E#8).setV 0x1#4 0x10#8)).map faultFields =
      some (5#3, 0x300#16, 0xE19E#16, 0x10#16) := by decide

/-- KT-2. -/
theorem test_sknp :
    (after ((start 0x300#16 0xE1#8 0xA1#8).setV 0x1#4 5#8)).map (fun t => t.pc) = some 0x304#16 := by decide

/-- KT-1. -/
theorem test_sknp_pressed :
    (after (withKey ((start 0x300#16 0xE1#8 0xA1#8).setV 0x1#4 5#8) 5)).map (fun t => t.pc) = some 0x302#16 := by decide

/-- KT-4. -/
theorem test_ldVxDT :
    (after (withTimers (start 0x200#16 0xF1#8 0x07#8) 0x17#8 0#8)).map (fun t => (t.getV 0x1#4, t.dt)) =
      some (0x17#8, 0x16#8) := by decide

/-- KT-6. -/
theorem test_ldVxK_stalls :
    (after (withTimers (start 0x300#16 0xF3#8 0x0A#8) 5#8 0#8)).map (fun t => (t.pc, t.await, t.getV 0x3#4, t.dt)) =
      some (0x300#16, true, 0#8, 4#8) := by decide

/-- KT-7: the lowest key. -/
theorem test_ldVxK_lowest :
    (after (withKey (withKey (start 0x300#16 0xF3#8 0x0A#8) 9) 12)).map (fun t => (t.pc, t.await, t.getV 0x3#4)) =
      some (0x302#16, false, 9#8) := by decide

/-- KT-9. -/
theorem test_ldDTVx :
    (after ((start 0x200#16 0xF0#8 0x15#8).setV 0x0#4 0x20#8)).map (fun t => t.dt) = some 0x1F#8 := by decide

/-- KT-11. -/
theorem test_ldSTVx :
    (after ((start 0x200#16 0xF2#8 0x18#8).setV 0x2#4 3#8)).map (fun t => (t.st, (hostObserve t).sound)) =
      some (2#8, true) := by decide

/-- KT-11: V[x] = 1 sounds in no cycle. -/
theorem test_ldSTVx_one :
    (after ((start 0x200#16 0xF2#8 0x18#8).setV 0x2#4 1#8)).map (fun t => (t.st, (hostObserve t).sound)) =
      some (0#8, false) := by decide

/-! ### Reset, load and the host -/

/-- RS-1. -/
theorem test_init :
    let t := (hostOp Config.defaultFont .init (withStack (start 0x300#16 0x24#8 0x00#8) 16 0#16)).1
    (t.mem.bytesAt 0x50 5, t.mem.bytesAt 0x9B 5, t.mem.byteAt 0x4F, t.mem.byteAt 0xA0, t.pc, t.sp) =
      ([0xF0#8, 0x90#8, 0x90#8, 0x90#8, 0xF0#8], [0xF0#8, 0x80#8, 0xF0#8, 0x80#8, 0x80#8], 0#8, 0#8, 0x200#16, 0) := by
  decide

/-- RS-3. -/
theorem test_load_capacity (s : State) (rom : List Byte) (h : rom.length = 3585) :
    hostLoad rom s = (s, some .capacity) := by
  simp [hostLoad, Config.romMax, h]

/-- The first bytes of the program of L1-9, loaded. -/
theorem test_boot :
    (hostOp Config.defaultFont (.boot [0xA2#8, 0x2A#8, 0x60#8, 0x0C#8]) State.reset).1.mem.bytesAt 0x1FF 6 =
      [0#8, 0xA2#8, 0x2A#8, 0x60#8, 0x0C#8, 0#8] := by decide

/-- The word placed from reset is the one the next step runs. -/
theorem test_withFetchWord :
    (after (State.reset.withFetchWord 16 0x6FAB)).map (fun t => (t.getV VF, t.pc)) = some (0xAB#8, 0x202#16) := by decide

/-! ### Witnesses: states and operands that meet the hypotheses of each obligation, clause by clause -/

/-- A core halted by the fault of IM-7. -/
def haltedCore : State :=
  { State.reset with fault := { cause := .memOob, fpc := 0x300#16, fword := 0xF133#16, finfo := 0x1000#16 } }

/-- The state after one cycle, which every cycle answers. -/
def next (s : State) : State := stateOf (step s)

theorem witness_DecodeAndEncodeAgree : decode 0xD12E#16 = .instr (.drw 0x1#4 0x2#4 0xE#4) := by decide

theorem witness_DecodeMatchesOneTableRow :
    (Instr.ret).row ∈ opcodeRows ∧ (Instr.ret).row.accepts 0x00EE#16 = true ∧ decode 0x00EE#16 = .instr .ret := by decide

/-- Words at the ends of each range, unmapped; the words beside them, mapped. -/
theorem witness_UnmappedSpace :
    ([0x0000#16, 0x00DF#16, 0x00E1#16, 0x00EF#16, 0x0FFF#16, 0x5001#16, 0x5FFF#16, 0x8008#16, 0x8FFD#16, 0x800F#16,
      0x9001#16, 0x9FFF#16, 0xE09D#16, 0xE0A2#16, 0xEFFF#16, 0xF006#16, 0xF066#16, 0xFFFF#16].all
      (fun w => decode w == .unmapped w)) = true ∧
    ([0x00E0#16, 0x00EE#16, 0x1000#16, 0x5000#16, 0x8007#16, 0x800E#16, 0x9000#16, 0xE09E#16, 0xE0A1#16, 0xF007#16,
      0xF065#16].any (fun w => decode w == .unmapped w)) = false := by decide

theorem witness_StepRunsDecodedInstruction :
    let s := start 0xFFE#16 0x81#8 0x24#8
    s.fault.cause = .none ∧ s.pc.toNat + 1 ≤ 0xFFF ∧
    decode (s.mem.byteAt s.pc.toNat ++ s.mem.byteAt (s.pc.toNat + 1)) = .instr (.addReg 0x1#4 0x2#4) ∧
    (stateOf (exec (.addReg 0x1#4 0x2#4) s.advanced)).fault.cause = .none := by decide

theorem witness_StepRunsDecodedInstruction_faulting :
    let s := start 0x200#16 0x00#8 0xEE#8
    s.fault.cause = .none ∧ s.pc.toNat + 1 ≤ 0xFFF ∧
    decode (s.mem.byteAt s.pc.toNat ++ s.mem.byteAt (s.pc.toNat + 1)) = .instr .ret ∧
    (stateOf (exec .ret s.advanced)).fault.cause ≠ .none := by decide

/-- CY-7, and the moves that lead out. -/
theorem witness_HaltedUntilInitOrRestore :
    haltedCore.fault.cause ≠ .none ∧ (hostOp Config.defaultFont .init haltedCore).1.fault.cause = .none ∧
    (hostOp Config.defaultFont (.boot [0x12#8, 0x00#8]) haltedCore).1.fault.cause = .none ∧
    State.reset.consistent = true ∧ (hostOp Config.defaultFont (.restore State.reset) haltedCore).1.fault.cause = .none ∧
    (hostOp Config.defaultFont .step haltedCore).1.fault.cause ≠ .none := by decide

theorem witness_FetchIsBigEndianOrFaults :
    (start 0xFFE#16 0x61#8 0x23#8).pc.toNat + 1 ≤ 0xFFF ∧
    (start 0xFFF#16 0#8 0#8).fault.cause = .none ∧ 0xFFF < (start 0xFFF#16 0#8 0#8).pc.toNat + 1 ∧
    (start 0x1000#16 0#8 0#8).fault.cause = .none ∧ 0xFFF < (start 0x1000#16 0#8 0#8).pc.toNat := by decide

theorem witness_UnmappedWordIsNoOp :
    (start 0x200#16 0x51#8 0x21#8).fetches ∧ ∀ i, decode (start 0x200#16 0x51#8 0x21#8).wordAtPc ≠ .instr i := by
  have h : decode (start 0x200#16 0x51#8 0x21#8).wordAtPc = .unmapped 0x5121#16 := by decide
  exact ⟨⟨by decide, by decide⟩, fun i hi => by rw [h] at hi; cases hi⟩

theorem witness_FaultingCycleCommitsNothing :
    let s := start 0x200#16 0x00#8 0xEE#8
    s.fault.cause = .none ∧ step s = .next (next s) ∧ (next s).fault.cause ≠ .none ∧
      (next s).fault.cause ≠ .fetchOob :=
  ⟨rfl, answers (by decide), by decide, by decide⟩

theorem witness_FaultingCycleCommitsNothing_fetch :
    let s := start 0xFFF#16 0x00#8 0x00#8
    s.fault.cause = .none ∧ step s = .next (next s) ∧ (next s).fault.cause = .fetchOob :=
  ⟨rfl, answers (by decide), by decide⟩

theorem witness_FaultCausesAndInfo_none :
    let s := start 0x200#16 0x60#8 0x05#8
    s.fault.cause = .none ∧ step s = .next (next s) ∧ (next s).fault.cause = .none :=
  ⟨rfl, answers (by decide), by decide⟩

theorem witness_FaultCausesAndInfo_fetchOob :
    let s := start 0x1000#16 0x00#8 0x00#8
    s.fault.cause = .none ∧ step s = .next (next s) ∧ (next s).fault.cause = .fetchOob ∧
      (next s).fault.finfo.toNat = 0x1000 :=
  ⟨rfl, answers (by decide), by decide, by decide⟩

/-- The first address out of range, and I itself above 0xFFF, for each of the four instructions. -/
theorem witness_FaultCausesAndInfo_memOob :
    ∀ s ∈ [withI (start 0x300#16 0xD0#8 0x12#8) 0xFFF#16, withI (start 0x300#16 0xD0#8 0x11#8) 0x1000#16,
        withI (start 0x300#16 0xF1#8 0x33#8) 0xFFE#16, withI (start 0x300#16 0xF1#8 0x33#8) 0x2000#16,
        withI (start 0x300#16 0xF1#8 0x55#8) 0xFFF#16, withI (start 0x300#16 0xF1#8 0x65#8) 0xFFF#16],
      s.fault.cause = .none ∧ (after s).isSome = true ∧ (next s).fault.cause = .memOob ∧
        (next s).fault.finfo.toNat = (if 0xFFF < s.i.toNat then s.i.toNat else 0x1000) := by decide

theorem witness_FaultCausesAndInfo_stack :
    let s := withStack (start 0x300#16 0x24#8 0x00#8) 16 0#16
    let u := start 0x300#16 0x00#8 0xEE#8
    s.fault.cause = .none ∧ step s = .next (next s) ∧ (next s).fault.cause = .stackOverflow ∧
    u.fault.cause = .none ∧ step u = .next (next u) ∧ (next u).fault.cause = .stackUnderflow :=
  ⟨rfl, answers (by decide), by decide, rfl, answers (by decide), by decide⟩

theorem witness_FaultCausesAndInfo_keyRange :
    let s := (start 0x300#16 0xE1#8 0xA1#8).setV 0x1#4 0x10#8
    s.fault.cause = .none ∧ step s = .next (next s) ∧ (next s).fault.cause = .keyRange :=
  ⟨rfl, answers (by decide), by decide⟩

theorem witness_TimersTickInCompletedCycles_stopped :
    step haltedCore = .next (next haltedCore) ∧ haltedCore.fault.cause ≠ .none :=
  ⟨answers (by decide), by decide⟩

/-- Fx15 and Fx18 with V[x] = 0 and another word with DT = 0, the ends of the ranges. -/
theorem witness_TimersTickInCompletedCycles :
    let s := withTimers (start 0x200#16 0xF0#8 0x15#8) 0#8 1#8
    let u := withTimers (start 0x200#16 0xF0#8 0x18#8) 1#8 0#8
    step s = .next (next s) ∧ s.fault.cause = .none ∧ (next s).fault.cause = .none ∧
    decode s.wordAtPc = .instr (.ldDTVx 0x0#4) ∧ (next s).dt.toNat = 0 ∧ (next s).st.toNat = 0 ∧
    step u = .next (next u) ∧ u.fault.cause = .none ∧ (next u).fault.cause = .none ∧
    decode u.wordAtPc = .instr (.ldSTVx 0x0#4) ∧ (next u).dt.toNat = 0 ∧ (next u).st.toNat = 0 :=
  ⟨answers (by decide), rfl, by decide, by decide, by decide, by decide,
   answers (by decide), rfl, by decide, by decide, by decide, by decide⟩

theorem witness_AwaitMarksStalledKeyWait :
    let s := start 0x300#16 0xF3#8 0x0A#8
    s.fault.cause = .none ∧ step s = .next (next s) ∧ (next s).await = true :=
  ⟨rfl, answers (by decide), by decide⟩

/-- CY-11: a state with AWAIT = 1 whose cycle clears it. -/
theorem witness_AwaitMarksStalledKeyWait_cleared :
    let s := (start 0x300#16 0x00#8 0x00#8).setAwait true
    s.fault.cause = .none ∧ step s = .next (next s) ∧ (next s).await = false :=
  ⟨rfl, answers (by decide), by decide⟩

theorem witness_InstructionsWriteOnlyTheirRule :
    let s := withI ((start 0x200#16 0xF3#8 0x55#8).setV 0x3#4 9#8) 0xFFC#16
    let t := stateOf (exec (.storeV 0x3#4) s)
    s.fault.cause = .none ∧ exec (.storeV 0x3#4) s = .next t ∧ t.fault.cause = .none ∧
      (Instr.storeV 0x3#4).writesReg 0x3#4 = false :=
  ⟨rfl, answers (by decide), by decide, by decide⟩

theorem witness_StepChangesStateOnlyByName_index :
    let s := start 0x200#16 0xA1#8 0x23#8
    step s = .next (next s) ∧ (next s).i ≠ s.i :=
  ⟨answers (by decide), by decide⟩

theorem witness_StepChangesStateOnlyByName_memory :
    let s := withI ((start 0x200#16 0xF0#8 0x55#8).setV 0x0#4 0xAA#8) 0xFFF#16
    step s = .next (next s) ∧ ∃ a, (next s).mem.byteAt a ≠ s.mem.byteAt a :=
  ⟨answers (by decide), 0xFFF, by decide⟩

theorem witness_StepChangesStateOnlyByName_display :
    let s := withPixel (start 0x200#16 0x00#8 0xE0#8) 63 31
    step s = .next (next s) ∧ (next s).pix ≠ s.pix ∧ (next s).dirty ≠ s.dirty :=
  ⟨answers (by decide), by decide, by decide⟩

theorem witness_StepChangesStateOnlyByName_stack :
    let s := start 0x200#16 0x22#8 0x10#8
    step s = .next (next s) ∧ (next s).sp ≠ s.sp ∧ (next s).stack ≠ s.stack :=
  ⟨answers (by decide), by decide, by decide⟩

theorem witness_AwaitReadByNoCycle : (start 0x300#16 0xF3#8 0x0A#8).fault.cause = .none := rfl

theorem witness_RandomByteReadByRndAlone :
    let s := start 0x200#16 0x61#8 0x23#8
    ¬(s.fetches ∧ ∃ x kk, decode s.wordAtPc = .instr (.rnd x kk)) ∧ step s = .next (next s) := by
  have h : decode (start 0x200#16 0x61#8 0x23#8).wordAtPc = .instr (.ldImm 0x1#4 0x23#8) := by decide
  refine ⟨?_, answers (by decide)⟩
  rintro ⟨-, x, kk, hd⟩
  rw [h] at hd
  cases hd

/-- A stalled key-wait meets the invariant with AWAIT = 1. -/
theorem witness_EveryStepKeepsInvariant :
    let s := (start 0x300#16 0xF3#8 0x0A#8).setAwait true
    s.Inv ∧ step s = .next (next s) :=
  ⟨by unfold State.Inv; decide, answers (by decide)⟩

/-- A state a host reaches with AWAIT = 1. -/
theorem witness_ReachableStatesAreConsistent :
    let u := (hostOp Config.defaultFont (.boot [0xF3#8, 0x0A#8]) (State.initial Config.defaultFont)).1
    let s := (hostOp Config.defaultFont .step u).1
    Reachable Config.defaultFont s ∧ s.await = true :=
  ⟨.move _ _ (.move _ _ .initial), by decide⟩

theorem witness_EveryHostMoveKeepsInvariant : ((start 0x300#16 0xF3#8 0x0A#8).setAwait true).Inv := by
  unfold State.Inv
  decide

theorem witness_NonCanonicalSnapshotIsRefused :
    ({ State.reset with mem := [(0x300, 0x00#8)] } : State).mem.wf = false ∧
    ({ State.reset with mem := [(0x301, 0x01#8), (0x300, 0x01#8)] } : State).mem.wf = false := by decide

theorem witness_MemoryByteAccess : Memory.wf [(0x300, 7#8)] = true ∧ 0xFFF < 0x1000 ∧ 0xFFF ≤ 0xFFF := by decide

theorem witness_RangeCheckedBeforeAnyByte :
    (∀ k < [1#8, 2#8].length, 0xFFE + k ≤ 0xFFF) ∧
    (2 < [1#8, 2#8, 3#8].length ∧ 0xFFF < 0xFFE + 2 ∧ ∀ j < 2, 0xFFE + j ≤ 0xFFF) := by decide

theorem witness_StoredBytesAreFetched :
    let s := withI (((start 0x200#16 0xF1#8 0x55#8).setV 0x0#4 0x60#8).setV 0x1#4 0x05#8) 0xFFE#16
    let t := stateOf (exec (.storeV 0x1#4) s)
    let u := t.setPc 0xFFE#16
    s.mem.wf = true ∧ s.i.toNat + (0x1#4).toNat ≤ 0xFFF ∧ exec (.storeV 0x1#4) s = .next t ∧ u.mem = t.mem ∧
      u.pc.toNat = s.i.toNat + 0 ∧ 0 + 1 ≤ (0x1#4).toNat :=
  ⟨by decide, by decide, answers (by decide), rfl, by decide, by decide⟩

/-- The ends of each range of the statement, with a FONT that is not the default. -/
theorem witness_InitializerValues :
    let font : Config.Font := Vector.replicate 80 0x00#8 |>.set 0 0xAA#8 |>.set 79 0xBB#8
    let t := (hostOp font .init haltedCore).1
    (t.mem.byteAt 0x4F, t.mem.byteAt 0x50, t.mem.byteAt 0x51, t.mem.byteAt 0x9F, t.mem.byteAt 0xA0) =
      (0x00#8, 0xAA#8, 0x00#8, 0xBB#8, 0x00#8) := by decide

/-- The lengths of LoadCopiesRomOrRefuses and BootIsInitThenLoad at their bound, and the premise of
LoadKeepsCanonicalMemory. -/
theorem witness_LoadCopiesRomOrRefuses :
    State.reset.mem.wf = true ∧ 3584 < (List.replicate 3585 0#8).length ∧ (List.replicate 3584 0#8).length ≤ 3584 := by
  refine ⟨by decide, ?_, ?_⟩ <;> rw [List.length_replicate]
  omega

/-- Accepted with AWAIT = 0 and with AWAIT = 1; refused for another word at PC, for a halted core, for PC at 0xFFF. -/
theorem witness_RestoreReplacesWholeState :
    let s := (start 0x300#16 0xF3#8 0x0A#8).setAwait true
    (haltedCore.mem.wf = true ∧ haltedCore.await = false) ∧
    (s.mem.wf = true ∧ s.await = true ∧ s.fault.cause = .none ∧ s.pc.toNat + 1 ≤ 0xFFF ∧
      decode s.wordAtPc = .instr (.ldVxK 0x3#4)) ∧
    (let u := (start 0x300#16 0x00#8 0x00#8).setAwait true
     u.mem.wf = true ∧ u.await = true ∧ decode u.wordAtPc = .unmapped 0x0000#16) ∧
    ((haltedCore.setAwait true).await = true ∧ (haltedCore.setAwait true).fault.cause ≠ .none) ∧
    ((s.setPc 0xFFF#16).await = true ∧ ¬(s.setPc 0xFFF#16).pc.toNat + 1 ≤ 0xFFF) := by decide

theorem witness_HostWritesKeypadAndDirty :
    step (start 0x300#16 0xF3#8 0x0A#8) = .next (next (start 0x300#16 0xF3#8 0x0A#8)) := answers (by decide)

theorem witness_ObserveReportsState :
    State.reset.st.toNat = 0 ∧ (withTimers State.reset 0#8 1#8).st.toNat ≠ 0 ∧ haltedCore.fault.cause ≠ .none ∧
    0 < 1 ∧ 31 < 32 := by decide

theorem witness_ReturnPopsStack :
    0 < (withStack State.reset 1 0x300#16).sp.val ∧ 0 < (withStack State.reset 16 0x300#16).sp.val ∧
    State.reset.sp.val = 0 := by decide

theorem witness_CallPushesReturnAddress :
    State.reset.sp.val < 16 ∧ (withStack State.reset 15 0#16).sp.val < 16 ∧ (withStack State.reset 16 0#16).sp.val = 16 := by
  decide

theorem witness_ReturnUndoesCall :
    let s := withStack (start 0x200#16 0x24#8 0x00#8) 15 0#16
    let t := stateOf (exec (.call 0x400#12) s)
    s.sp.val < 16 ∧ exec (.call 0x400#12) s = .next t ∧ (t.setPc 0x600#16).sp = t.sp ∧ (t.setPc 0x600#16).stack = t.stack :=
  ⟨by decide, answers (by decide), rfl, rfl⟩

/-- The cases of x and y being VF or not, of the flag-writing instructions. -/
theorem witness_flag_register_cases : (0x1#4 : RegIdx) ≠ VF ∧ (0xE#4 : RegIdx) ≠ VF ∧ (0xF#4 : RegIdx) = VF := by decide

theorem witness_BcdStoresDigits :
    let s := start 0x300#16 0xF1#8 0x33#8
    s.mem.wf = true ∧ (withI s 0xFFD#16).i.toNat + 2 ≤ 0xFFF ∧ 0xFFF < (withI s 0xFFE#16).i.toNat + 2 ∧
    0xFFF < (withI s 0x1000#16).i.toNat := by decide

theorem witness_StoreCopiesRegisters :
    let s := start 0x300#16 0xFF#8 0x55#8
    s.mem.wf = true ∧ (withI s 0xFF0#16).i.toNat + (0xF#4).toNat ≤ 0xFFF ∧
    0xFFF < (withI s 0xFF1#16).i.toNat + (0xF#4).toNat ∧ (withI s 0xFFF#16).i.toNat + (0x0#4).toNat ≤ 0xFFF := by decide

theorem witness_LoadCopiesMemory :
    let s := start 0x300#16 0xFF#8 0x65#8
    (withI s 0xFF0#16).i.toNat + (0xF#4).toNat ≤ 0xFFF ∧ 0xFFF < (withI s 0xFF1#16).i.toNat + (0xF#4).toNat ∧
    (0x0#4 : RegIdx).toNat ≤ (0x0#4).toNat ∧ (0x0#4).toNat < (0x1#4 : RegIdx).toNat := by decide

/-- n = 0 with I at 0xFFFF (DS-9), the last row at 0xFFF, and the last row above it (DS-10). -/
theorem witness_DrawTogglesSpriteAndFlagsCollision :
    (0x0#4 : Count).toNat = 0 ∧ (withI State.reset 0xFF1#16).i.toNat + ((0xF#4 : Count).toNat - 1) ≤ 0xFFF ∧
    0 < (0x2#4 : Count).toNat ∧ 0xFFF < (withI State.reset 0xFFF#16).i.toNat + ((0x2#4 : Count).toNat - 1) := by decide

/-- L1-5: the second draw collides. -/
theorem witness_DrawTwiceRestoresScreen :
    let s := withI (withByte (start 0x200#16 0xD0#8 0x11#8) 0x300 0x80#8) 0x300#16
    let t := stateOf (exec (.drw 0x0#4 0x1#4 0x1#4) s)
    let u := stateOf (exec (.drw 0x0#4 0x1#4 0x1#4) t)
    s.fault.cause = .none ∧ (0x0#4 : RegIdx) ≠ VF ∧ (0x1#4 : RegIdx) ≠ VF ∧
    exec (.drw 0x0#4 0x1#4 0x1#4) s = .next t ∧ t.fault.cause = .none ∧ exec (.drw 0x0#4 0x1#4 0x1#4) t = .next u ∧
    (∃ px py, px < 64 ∧ py < 32 ∧ spriteCovers s 0x0#4 0x1#4 0x1#4 px py = true) ∧ t.getV VF = 0x00#8 ∧
    u.getV VF = 0x01#8 :=
  ⟨rfl, by decide, by decide, answers (by decide), by decide, answers (by decide), ⟨0, 0, by decide⟩, by decide,
   by decide⟩

theorem witness_KeySkips :
    ((start 0x300#16 0xE1#8 0x9E#8).setV 0x1#4 15#8).getV 0x1#4 = 15#8 ∧ (15#8).toNat < 16 ∧ 15 < (16#8).toNat := by decide

/-- Key 0 alone, key 15 alone, no key. -/
theorem witness_KeyWait :
    let s := start 0x300#16 0xF3#8 0x0A#8
    ((withKey s 0).key[0] = true ∧ ∀ j (hj : j < 0), (withKey s 0).key[j] = false) ∧
    ((withKey s 15).key[15] = true ∧ ∀ j (hj : j < 15), (withKey s 15).key[j] = false) ∧
    (∀ k (h : k < 16), s.key[k] = false) ∧ s.fetches ∧ decode s.wordAtPc = .instr (.ldVxK 0x3#4) := by
  refine ⟨by decide, by decide, by decide, ⟨by decide, by decide⟩, by decide⟩

theorem witness_DelayTimerRead :
    (start 0x300#16 0xF1#8 0x07#8).fetches ∧
    decode (start 0x300#16 0xF1#8 0x07#8).wordAtPc = .instr (.ldVxDT 0x1#4) := by
  refine ⟨⟨by decide, by decide⟩, by decide⟩

theorem witness_TimerWrites :
    (start 0x300#16 0xF1#8 0x15#8).fetches ∧
    decode (start 0x300#16 0xF1#8 0x15#8).wordAtPc = .instr (.ldDTVx 0x1#4) ∧
    (start 0x300#16 0xF2#8 0x18#8).fetches ∧
    decode (start 0x300#16 0xF2#8 0x18#8).wordAtPc = .instr (.ldSTVx 0x2#4) := by
  refine ⟨⟨by decide, by decide⟩, by decide, ⟨by decide, by decide⟩, by decide⟩

end Sys2Proof.Tests
end

