-- ==== Sys2Proof/Proofs/Initializer.lean ====
section
/-! PROOFS. The state the Initializer leaves, element by element (10_state.md R38, 70_reset_and_hazards.md R332). -/

namespace Sys2Proof.Machine

/-! ### The elements of State.reset that are tables -/

@[simp] theorem State.reset_getV (r : RegIdx) : State.reset.getV r = 0x00#8 :=
  Vector.getElem_replicate r.isLt

@[simp] theorem State.reset_stack_getElem (k : Nat) (h : k < 16) : State.reset.stack[k] = 0x0000#16 :=
  Vector.getElem_replicate h

@[simp] theorem State.reset_key_getElem (k : Nat) (h : k < 16) : State.reset.key[k] = false :=
  Vector.getElem_replicate h

@[simp] theorem State.reset_pix_isOn (px py : Nat) : State.reset.pix.isOn px py = false :=
  Screen.isOn_blank px py

/-! ### Memory after the Initializer, range by range -/

theorem State.initial_byteAt_below_font (font : Config.Font) {a : Nat} (h : a < 0x50) :
    (State.initial font).mem.byteAt a = 0x00#8 := by
  rw [State.initial_byteAt, dif_neg (by omega)]

theorem State.initial_byteAt_font (font : Config.Font) (k : Nat) (h : k < 80) :
    (State.initial font).mem.byteAt (0x50 + k) = font[k] := by
  rw [State.initial_byteAt, dif_pos (by omega)]
  simp only [Nat.add_sub_cancel_left]

theorem State.initial_byteAt_above_font (font : Config.Font) {a : Nat} (h : 0xA0 ≤ a) :
    (State.initial font).mem.byteAt a = 0x00#8 := by
  rw [State.initial_byteAt, dif_neg (by omega)]

/-! ### Init as a whole -/

/-- Init gives State.reset but for memory, which holds FONT, and the model's count of draws, which goes on. Of the
state it starts from it reads that count alone. -/
theorem hostInit_eq (font : Config.Font) (s : State) :
    hostInit font s = { State.reset with mem := (State.initial font).mem, draws := s.draws } := rfl

/-- Two states with the same count of draws have the same Init. -/
theorem hostInit_congr (font : Config.Font) {s u : State} (h : s.draws = u.draws) :
    hostInit font s = hostInit font u := by
  rw [hostInit_eq, hostInit_eq, h]

theorem hostInit_idempotent (font : Config.Font) (s : State) :
    hostInit font (hostInit font s) = hostInit font s :=
  hostInit_congr font (hostInit_draws font s)

/-- The state of 10_state.md R20 that Init gives, which leaves the count of draws out, is the same from every state. -/
theorem hostInit_independent (font : Config.Font) (s u : State) :
    { hostInit font s with draws := 0 } = { hostInit font u with draws := 0 } := by
  simp only [hostInit_eq]

/-- Settles O24: Init answers State.reset with FONT in memory, so every element is read off that state. -/
theorem initializerValues : Obligations.InitializerValues := by
  unfold Obligations.InitializerValues
  intro font
  refine ⟨fun s u => ⟨hostInit_idempotent font s, hostInit_independent font s u⟩, fun s => ?_⟩
  refine ⟨{ State.reset with mem := (State.initial font).mem, draws := s.draws }, ?answer, ?memLow, ?memFont, ?memHigh,
    ?v, ?i, ?pc, ?sp, ?stack, ?dt, ?st, ?key, ?pix, ?dirty, ?await, ?fault⟩
  case answer => rw [hostOp, hostInit_eq]
  case memLow => exact fun a h => State.initial_byteAt_below_font font h
  case memFont => exact State.initial_byteAt_font font
  case memHigh => exact fun a h _ => State.initial_byteAt_above_font font h
  case v => exact State.reset_getV
  case stack => exact State.reset_stack_getElem
  case key => exact State.reset_key_getElem
  case pix => exact State.reset_pix_isOn
  all_goals rfl

end Sys2Proof.Machine
end

/-! PROOFS. The cycle (40_cycle.md): what a step can do with its frame, the fault entry, the timer tick, AWAIT, and the host's moves between cycles. -/

namespace Sys2Proof

/-! ### The word of a decoded instruction -/

theorem word_of_op_nnn {w : Word} {op : BitVec 4} (h : (opField w).toNat = op.toNat) : op ++ nnnField w = w := by
  rw [← BitVec.eq_of_toNat_eq h, word_nnn]

theorem word_of_op_xkk {w : Word} {op : BitVec 4} (h : (opField w).toNat = op.toNat) :
    op ++ xField w ++ kkField w = w := by
  rw [← BitVec.eq_of_toNat_eq h, word_xkk]

theorem word_of_op_kk {w : Word} {op : BitVec 4} {kk : Byte} (h : (opField w).toNat = op.toNat)
    (hk : (kkField w).toNat = kk.toNat) : op ++ xField w ++ kk = w := by
  rw [← BitVec.eq_of_toNat_eq hk, word_of_op_xkk h]

theorem word_of_op_xyn {w : Word} {op : BitVec 4} (h : (opField w).toNat = op.toNat) :
    op ++ xField w ++ yField w ++ nField w = w := by
  rw [← BitVec.eq_of_toNat_eq h, word_xyn]

theorem word_of_op_n {w : Word} {op n : BitVec 4} (h : (opField w).toNat = op.toNat)
    (hn : (nField w).toNat = n.toNat) : op ++ xField w ++ yField w ++ n = w := by
  rw [← BitVec.eq_of_toNat_eq hn, word_of_op_xyn h]

theorem encode_of_decode0 {w : Word} {i : Instr} (h : decode0 w = .instr i) : encode i = w := by
  unfold decode0 at h
  split at h
  · cases h; exact Eq.symm ‹_›
  · split at h
    · cases h; exact Eq.symm ‹_›
    · cases h

theorem encode_of_decode8 {w : Word} {i : Instr} (hop : (opField w).toNat = 8) (h : decode8 w = .instr i) :
    encode i = w := by
  unfold decode8 at h
  split at h <;> cases h <;> exact word_of_op_n hop ‹_›

theorem encode_of_decodeE {w : Word} {i : Instr} (hop : (opField w).toNat = 14) (h : decodeE w = .instr i) :
    encode i = w := by
  unfold decodeE at h
  split at h <;> cases h <;> exact word_of_op_kk hop ‹_›

theorem encode_of_decodeF {w : Word} {i : Instr} (hop : (opField w).toNat = 15) (h : decodeF w = .instr i) :
    encode i = w := by
  unfold decodeF at h
  split at h <;> cases h <;> exact word_of_op_kk hop ‹_›

/-- The decoder drops no bit: a decoded instruction encodes to the word it was decoded from (30_encoding.md R71 to
R76). -/
theorem encode_of_decode {w : Word} {i : Instr} (h : decode w = .instr i) : encode i = w := by
  unfold decode at h
  split at h
  case h_1 => exact encode_of_decode0 h
  case h_2 hop | h_3 hop | h_11 hop | h_12 hop => cases h; exact word_of_op_nnn hop
  case h_4 hop | h_5 hop | h_7 hop | h_8 hop | h_13 hop => cases h; exact word_of_op_xkk hop
  case h_6 hop | h_10 hop =>
    split at h
    · cases h; exact word_of_op_n hop (congrArg _ ‹_›)
    · cases h
  case h_9 hop => exact encode_of_decode8 hop h
  case h_14 hop => cases h; exact word_of_op_xyn hop
  case h_15 hop => exact encode_of_decodeE hop h
  case h_16 hop => exact encode_of_decodeF hop h
  case h_17 => cases h

end Sys2Proof

namespace Sys2Proof.Machine

/-! ### Frames -/

theorem Part.same_refl (s : State) (p : Part) : Part.same s s p := by
  cases p <;> simp [Part.same]

theorem Part.same_trans {s t u : State} {p : Part} (h : Part.same s t p) (h' : Part.same t u p) :
    Part.same s u p := by
  cases p <;> simp_all [Part.same]

theorem Frame.refl (ps : List Part) (s : State) : Frame ps s s := fun p _ => Part.same_refl s p

theorem Frame.mono {ps qs : List Part} {s t : State} (h : Frame ps s t) (hs : ps ⊆ qs) : Frame qs s t :=
  fun p hp => h p fun hm => hp (hs hm)

theorem Frame.trans {ps : List Part} {s t u : State} (h : Frame ps s t) (h' : Frame ps t u) : Frame ps s u :=
  fun p hp => Part.same_trans (h p hp) (h' p hp)

/-- One change after another: what either may change. -/
theorem Frame.append {ps qs : List Part} {s t u : State} (h : Frame ps s t) (h' : Frame qs t u) :
    Frame (ps ++ qs) s u :=
  (h.mono (List.subset_append_left ..)).trans (h'.mono (List.subset_append_right ..))

theorem frame_singleton {q : Part} {s t : State} (h : ∀ p, p ≠ q → Part.same s t p) : Frame [q] s t :=
  fun p hp => h p fun e => hp (List.mem_singleton.2 e)

section Setters
variable (s : State)

theorem frame_setMem (m : Memory) : Frame [.mem] s (s.setMem m) :=
  frame_singleton fun p hp => by cases p <;> simp_all [Part.same]

theorem frame_setV (x : RegIdx) (b : Byte) : Frame [.v] s (s.setV x b) :=
  frame_singleton fun p hp => by cases p <;> simp_all [Part.same]

theorem frame_setRegs (v : Vector Byte 16) : Frame [.v] s (s.setRegs v) :=
  frame_singleton fun p hp => by cases p <;> simp_all [Part.same]

theorem frame_setI (w : Word) : Frame [.i] s (s.setI w) :=
  frame_singleton fun p hp => by cases p <;> simp_all [Part.same]

theorem frame_setPc (w : Word) : Frame [.pc] s (s.setPc w) :=
  frame_singleton fun p hp => by cases p <;> simp_all [Part.same]

theorem frame_setSp (n : Fin 17) : Frame [.sp] s (s.setSp n) :=
  frame_singleton fun p hp => by cases p <;> simp_all [Part.same]

theorem frame_setStack (k : Vector Word 16) : Frame [.stack] s (s.setStack k) :=
  frame_singleton fun p hp => by cases p <;> simp_all [Part.same]

theorem frame_setDT (b : Byte) : Frame [.dt] s (s.setDT b) :=
  frame_singleton fun p hp => by cases p <;> simp_all [Part.same]

theorem frame_setST (b : Byte) : Frame [.st] s (s.setST b) :=
  frame_singleton fun p hp => by cases p <;> simp_all [Part.same]

theorem frame_setKey (k : Vector Bool 16) : Frame [.key] s (s.setKey k) :=
  frame_singleton fun p hp => by cases p <;> simp_all [Part.same]

theorem frame_setPix (p : Screen) : Frame [.pix] s (s.setPix p) :=
  frame_singleton fun p hp => by cases p <;> simp_all [Part.same]

theorem frame_setDirty (b : Bool) : Frame [.dirty] s (s.setDirty b) :=
  frame_singleton fun p hp => by cases p <;> simp_all [Part.same]

theorem frame_setAwait (b : Bool) : Frame [.await] s (s.setAwait b) :=
  frame_singleton fun p hp => by cases p <;> simp_all [Part.same]

theorem frame_setDraws (n : Nat) : Frame [.draws] s (s.setDraws n) :=
  frame_singleton fun p hp => by cases p <;> simp_all [Part.same]

theorem frame_skipIf (c : Bool) : Frame [.pc] s (s.skipIf c) := by
  cases c
  · exact Frame.refl _ s
  · exact frame_setPc s _

end Setters

theorem frame_ticked (s : State) : Frame [.dt, .st] s s.ticked := by
  rw [← s.tick_eq]
  exact (frame_setDT s _).append (frame_setST _ _)

theorem frame_advanced (s : State) : Frame [.await, .pc] s s.advanced :=
  (frame_setAwait s false).append (frame_setPc _ _)

/-! ### What the branching instructions can do -/

/-- RET pops, or raises STACK_UNDERFLOW (41_control_flow.md R141). -/
theorem execRet_cases (s : State) :
    execRet s = .next (s.raise .stackUnderflow .ret 0#16) ∨ ∃ n a, execRet s = .next ((s.setSp n).setPc a) := by
  by_cases h : s.sp.val = 0
  · exact .inl (by rw [execRet, s.pop_empty h])
  · exact .inr ⟨_, _, by rw [execRet, s.pop_some (by omega)]⟩

/-- CALL pushes in slot SP, or raises STACK_OVERFLOW (41_control_flow.md R143). -/
theorem execCall_cases (nnn : Addr12) (s : State) :
    execCall nnn s = .next (s.raise .stackOverflow (.call nnn) 16#16) ∨
    ∃ (h : s.sp.val < 16) (n : Fin 17), execCall nnn s =
      .next (((s.setStack (s.stack.set s.sp.val s.pc h)).setSp n).setPc (zextAddr nnn)) := by
  by_cases h : s.sp.val < 16
  · exact .inr ⟨h, _, by rw [execCall, s.push_room _ h]⟩
  · exact .inl (by rw [execCall, s.push_full _ (by have := s.sp.isLt; omega)])

/-- A store at I writes all its bytes, or raises MEM_OOB (20_memory.md R54). -/
theorem storeAtI_cases (i : Instr) (bs : List Byte) (s : State) :
    (∃ f, storeAtI i bs s = .next (s.raise .memOob i f)) ∨
    storeAtI i bs s = .next (s.setMem (s.mem.putBytes s.i.toNat bs)) := by
  rcases s.mem.writeRange_cases (s.effAddr 0) bs with ⟨h, -⟩ | ⟨h, -⟩
  · exact .inr (by rw [storeAtI, h]; rfl)
  · exact .inl ⟨_, by rw [storeAtI, h]⟩

/-- Fx65 loads V[0] to V[x], or raises MEM_OOB (43_index_memory.md R215). -/
theorem execLoadV_cases (x : RegIdx) (s : State) :
    (∃ f, execLoadV x s = .next (s.raise .memOob (.loadV x) f)) ∨
    execLoadV x s = .next (s.setRegs (loadRegs s.v 0 (s.mem.bytesAt s.i.toNat (x.toNat + 1)))) := by
  rcases s.mem.readRange_cases (s.effAddr 0) (x.toNat + 1) with ⟨h, -⟩ | ⟨h, -⟩
  · exact .inr (by rw [execLoadV, h]; rfl)
  · exact .inl ⟨_, by rw [execLoadV, h]⟩

/-- The raster that Dxyn leaves where all its bytes are in memory (44_display.md R241 to R248). -/
def spriteRaster (s : State) (x y : RegIdx) (n : Count) : Raster :=
  drawRows (originX (s.getV x)) (s.mem.bytesAt s.i.toNat n.toNat) (originY (s.getV y)) { screen := s.pix, hit := false }

/-- Dxyn draws the whole sprite, or raises MEM_OOB (44_display.md R249). -/
theorem execDrw_cases (x y : RegIdx) (n : Count) (s : State) :
    (∃ f, execDrw x y n s = .next (s.raise .memOob (.drw x y n) f)) ∨
    execDrw x y n s = .next (((s.setPix (spriteRaster s x y n).screen).setV VF
      (boolByte (spriteRaster s x y n).hit)).setDirty true) := by
  rcases s.mem.readRange_cases (s.effAddr 0) n.toNat with ⟨h, -⟩ | ⟨h, -⟩
  · exact .inr (by rw [execDrw, h]; rfl)
  · exact .inl ⟨_, by rw [execDrw, h]⟩

/-- The pixels Dxyn leaves: the old ones, turned over where the sprite covers them within the grid. -/
theorem spriteRaster_isOn (s : State) (x y : RegIdx) (n : Count) (px py : Nat) :
    (spriteRaster s x y n).screen.isOn px py =
      (s.pix.isOn px py ^^ (decide (px < 64) && decide (py < 32) && spriteCovers s x y n px py)) := by
  rw [spriteRaster, drawRows_isOn, rowsCover_eq, Memory.bytesAt_length]
  unfold spriteCovers originX originY
  by_cases hr : (s.getV y).toNat % 32 ≤ py ∧ py < (s.getV y).toNat % 32 + n.toNat
  · rw [Memory.bytesAt_getD _ _ (by omega)]
  · rcases Decidable.not_and_iff_or_not.1 hr with h | h <;> simp [h]

/-- A key skip skips or not, or raises KEY_RANGE (45_timers_keys.md R270, R271). -/
theorem skipOnKey_cases (i : Instr) (want : Bool) (x : RegIdx) (s : State) :
    (∃ f, skipOnKey i want x s = .next (s.raise .keyRange i f)) ∨ ∃ c, skipOnKey i want x s = .next (s.skipIf c) := by
  by_cases h : (s.getV x).toNat < 16
  · exact .inr ⟨_, by rw [skipOnKey, s.keyAt_some h]⟩
  · exact .inl ⟨_, by rw [skipOnKey, s.keyAt_none (by omega)]⟩

/-- Fx0A takes the lowest pressed key, or steps back and raises AWAIT (45_timers_keys.md R273). -/
theorem execLdVxK_cases (x : RegIdx) (s : State) :
    (∃ k, s.firstPressed = some k ∧ execLdVxK x s = .next (s.setV x (BitVec.ofNat 8 k))) ∨
    (s.firstPressed = none ∧ execLdVxK x s = .next (s.stepBack.setAwait true)) := by
  cases h : s.firstPressed with
  | some k => exact .inl ⟨k, rfl, by rw [execLdVxK, h]⟩
  | none => exact .inr ⟨rfl, by rw [execLdVxK, h]⟩

/-! ### What the execute step can do -/

/-- The execute step of i on s raised a fault of i; FETCH_OOB is the fetch's own (60_exceptions.md R301). -/
def Raised (i : Instr) (s t : State) : Prop :=
  ∃ c info, c ≠ .none ∧ c ≠ .fetchOob ∧ t = s.raise c i info

theorem raised_raise {c : Cause} (h : c ≠ .none) (h' : c ≠ .fetchOob) (i : Instr) (s : State) (info : Word) :
    Raised i s (s.raise c i info) := ⟨c, info, h, h', rfl⟩

/-- Everything the execute step can do: it raises a fault of its instruction, or it changes only what the rule of the
instruction writes (40_cycle.md R106). -/
theorem exec_cases (i : Instr) (s : State) :
    ∃ t, exec i s = .next t ∧ (Raised i s t ∨ Frame i.writes s t) := by
  cases i with
  | cls => exact ⟨_, rfl, .inr ((frame_setPix s _).append (frame_setDirty _ _))⟩
  | ret =>
    obtain h | ⟨n, a, h⟩ := execRet_cases s
    · exact ⟨_, h, .inl (raised_raise (by decide) (by decide) ..)⟩
    · exact ⟨_, h, .inr (((frame_setSp s n).append (frame_setPc _ _)).mono (by simp [Instr.writes]))⟩
  | jp nnn | jpV0 nnn => exact ⟨_, rfl, .inr (frame_setPc s _)⟩
  | call nnn =>
    obtain h | ⟨hs, n, h⟩ := execCall_cases nnn s
    · exact ⟨_, h, .inl (raised_raise (by decide) (by decide) ..)⟩
    · have hf := ((frame_setStack s (s.stack.set s.sp.val s.pc hs)).append (frame_setSp _ n)).append
        (frame_setPc _ (zextAddr nnn))
      exact ⟨_, h, .inr (hf.mono (by simp [Instr.writes]))⟩
  | seImm x y | sneImm x y | seReg x y | sneReg x y => exact ⟨_, rfl, .inr (frame_skipIf s _)⟩
  | ldImm x y | addImm x y | ldReg x y | orReg x y | andReg x y | xorReg x y | ldVxDT x =>
    exact ⟨_, rfl, .inr (frame_setV s _ _)⟩
  | addReg x y | subReg x y | shr x y | subnReg x y | shl x y =>
    exact ⟨_, rfl, .inr ((frame_setV s _ _).trans (frame_setV _ _ _))⟩
  | ldI nnn | addIVx x | ldFVx x => exact ⟨_, rfl, .inr (frame_setI s _)⟩
  | rnd x kk => exact ⟨_, rfl, .inr ((frame_setV s _ _).append (frame_setDraws _ _))⟩
  | drw x y n =>
    obtain ⟨f, h⟩ | h := execDrw_cases x y n s
    · exact ⟨_, h, .inl (raised_raise (by decide) (by decide) ..)⟩
    · have hf := ((frame_setPix s (spriteRaster s x y n).screen).append
        (frame_setV _ VF (boolByte (spriteRaster s x y n).hit))).append (frame_setDirty _ true)
      exact ⟨_, h, .inr (hf.mono (by simp [Instr.writes]))⟩
  | skp x | sknp x =>
    obtain ⟨f, h⟩ | ⟨c, h⟩ := skipOnKey_cases _ _ x s
    · exact ⟨_, h, .inl (raised_raise (by decide) (by decide) ..)⟩
    · exact ⟨_, h, .inr (frame_skipIf s c)⟩
  | ldVxK x =>
    obtain ⟨k, -, h⟩ | ⟨-, h⟩ := execLdVxK_cases x s
    · exact ⟨_, h, .inr ((frame_setV s _ _).mono (by simp [Instr.writes]))⟩
    · exact ⟨_, h, .inr (((frame_setPc s _).append (frame_setAwait _ _)).mono (by simp [Instr.writes]))⟩
  | ldDTVx x => exact ⟨_, rfl, .inr (frame_setDT s _)⟩
  | ldSTVx x => exact ⟨_, rfl, .inr (frame_setST s _)⟩
  | ldBVx x | storeV x =>
    obtain ⟨f, h⟩ | h := storeAtI_cases _ _ s
    · exact ⟨_, h, .inl (raised_raise (by decide) (by decide) ..)⟩
    · exact ⟨_, h, .inr (frame_setMem s _)⟩
  | loadV x =>
    obtain ⟨f, h⟩ | h := execLoadV_cases x s
    · exact ⟨_, h, .inl (raised_raise (by decide) (by decide) ..)⟩
    · exact ⟨_, h, .inr (frame_setRegs s _)⟩

end Sys2Proof.Machine

namespace Sys2Proof

/-- What the rule of a fetched word writes: its instruction's parts, none for an unmapped word (40_cycle.md R108). -/
def Decoded.writes : Decoded → List Machine.Part
  | .instr i => i.writes
  | .unmapped _ => []

/-! ### Which instruction writes a part that few write -/

theorem Decoded.mem_writes {d : Decoded} {p : Machine.Part} : p ∈ d.writes ↔ ∃ i, d = .instr i ∧ p ∈ i.writes := by
  cases d <;> simp [Decoded.writes]

theorem Instr.mem_mem_writes {i : Instr} : .mem ∈ i.writes ↔ (∃ x, i = .ldBVx x) ∨ ∃ x, i = .storeV x := by
  cases i <;> simp [Instr.writes]

theorem Instr.stack_mem_writes {i : Instr} : .stack ∈ i.writes ↔ ∃ nnn, i = .call nnn := by
  cases i <;> simp [Instr.writes]

theorem Instr.pix_mem_writes {i : Instr} : .pix ∈ i.writes ↔ i = .cls ∨ ∃ x y n, i = .drw x y n := by
  cases i <;> simp [Instr.writes]

theorem Instr.dt_mem_writes {i : Instr} : .dt ∈ i.writes ↔ ∃ x, i = .ldDTVx x := by
  cases i <;> simp [Instr.writes]

theorem Instr.st_mem_writes {i : Instr} : .st ∈ i.writes ↔ ∃ x, i = .ldSTVx x := by
  cases i <;> simp [Instr.writes]

theorem Instr.await_mem_writes {i : Instr} : .await ∈ i.writes ↔ ∃ x, i = .ldVxK x := by
  cases i <;> simp [Instr.writes]

theorem Instr.key_notMem_writes (i : Instr) : .key ∉ i.writes := by
  cases i <;> simp [Instr.writes]

theorem Instr.fault_notMem_writes (i : Instr) : .fault ∉ i.writes := by
  cases i <;> simp [Instr.writes]

end Sys2Proof

namespace Sys2Proof.Machine

/-! ### What the execute step of a word leaves unchanged -/

theorem Frame.same_of_writes {d : Decoded} {p : Part} {s t : State} (h : Frame d.writes s t)
    (hn : ∀ i, d = .instr i → p ∉ i.writes) : Part.same s t p :=
  h p fun hm => by
    obtain ⟨i, hd, hi⟩ := Decoded.mem_writes.1 hm
    exact hn i hd hi

theorem Frame.fault_eq {d : Decoded} {s t : State} (h : Frame d.writes s t) : t.fault = s.fault :=
  h.same_of_writes (p := .fault) fun i _ => i.fault_notMem_writes

theorem Frame.key_eq {d : Decoded} {s t : State} (h : Frame d.writes s t) : t.key = s.key :=
  h.same_of_writes (p := .key) fun i _ => i.key_notMem_writes

/-- Of all words only Fx15 writes DT. -/
theorem Frame.dt_eq {d : Decoded} {s t : State} (h : Frame d.writes s t) (hd : ∀ x, d ≠ .instr (.ldDTVx x)) :
    t.dt = s.dt :=
  h.same_of_writes (p := .dt) fun i hi hm => by
    obtain ⟨x, rfl⟩ := Instr.dt_mem_writes.1 hm
    exact hd x hi

/-- Of all words only Fx18 writes ST. -/
theorem Frame.st_eq {d : Decoded} {s t : State} (h : Frame d.writes s t) (hd : ∀ x, d ≠ .instr (.ldSTVx x)) :
    t.st = s.st :=
  h.same_of_writes (p := .st) fun i hi hm => by
    obtain ⟨x, rfl⟩ := Instr.st_mem_writes.1 hm
    exact hd x hi

/-- Of all words only Fx0A writes AWAIT. -/
theorem Frame.await_eq {d : Decoded} {s t : State} (h : Frame d.writes s t) (hd : ∀ x, d ≠ .instr (.ldVxK x)) :
    t.await = s.await :=
  h.same_of_writes (p := .await) fun i hi hm => by
    obtain ⟨x, rfl⟩ := Instr.await_mem_writes.1 hm
    exact hd x hi

/-! ### What a step can do, with its frame -/

/-- The cycle on s faulted: the fault entry at the PC of the cycle, with the fetched word in FWORD, or 0x0000 where the
fetch itself faulted (60_exceptions.md R302, R303). -/
def CycleFaulted (s t : State) : Prop :=
  ∃ c w info, c ≠ .none ∧ (c = .fetchOob → w = 0x0000#16) ∧ (c ≠ .fetchOob → w = s.wordAtPc) ∧
    t = s.enterFault c s.pc w info

/-- The cycle on s completed: the fetched word wrote what its rule writes, then the timers ticked (40_cycle.md R106,
R107). -/
def CycleCompleted (s t : State) : Prop :=
  s.fetches ∧ ∃ u, execWord s.wordAtPc s.advanced = .next u ∧ Frame (decode s.wordAtPc).writes s.advanced u ∧
    t = u.ticked

theorem step_halted {s : State} (h : s.fault.cause ≠ .none) : step s = .next s := by
  rw [step, cycle, if_pos (s.halted_iff.2 h)]

theorem step_fetches {s : State} (h : s.fetches) : step s = endOutcome (execWord s.wordAtPc s.advanced) := by
  obtain ⟨hrun, hpc⟩ := h
  rw [step, cycle, hrun, s.fetch_ok hpc]
  rfl

theorem step_fetchOob {s : State} (h : s.fault.cause = .none) (hpc : 0xFFF < s.pc.toNat + 1) :
    step s = .next (s.enterFault .fetchOob s.pc 0x0000#16 (if 0xFFF < s.pc.toNat then s.pc else 0x1000#16)) := by
  rw [step, cycle, s.not_halted_iff.2 h, s.fetch_error hpc]
  rfl

/-- A fault raised in the execute step is the fault entry at the PC the cycle started from. -/
theorem State.raise_advanced (s : State) (c : Cause) (i : Instr) (info : Word) :
    s.advanced.raise c i info = s.enterFault c s.pc (encode i) info := by
  have hpc : s.pc + 2#16 - 2#16 = s.pc := BitVec.add_sub_cancel s.pc 2#16
  rw [State.raise, State.advanced_pc, hpc]
  rfl

/-- Everything the execute step of a word can do on a state whose PC has been advanced. -/
theorem execWord_cases (w : Word) (s : State) :
    ∃ t, execWord w s.advanced = .next t ∧
      ((∃ c info, c ≠ .none ∧ c ≠ .fetchOob ∧ t = s.enterFault c s.pc w info) ∨
       Frame (decode w).writes s.advanced t) := by
  cases hd : decode w with
  | instr i =>
    obtain ⟨t, ht, ⟨c, info, hc, hc', rfl⟩ | hf⟩ := exec_cases i s.advanced
    · refine ⟨_, (execWord_instr hd _).trans ht, .inl ⟨c, info, hc, hc', ?_⟩⟩
      rw [s.raise_advanced, encode_of_decode hd]
    · exact ⟨t, (execWord_instr hd _).trans ht, .inr hf⟩
  | unmapped u => exact ⟨_, execWord_unmapped hd _, .inr (Frame.refl _ _)⟩

/-- Everything a step can do, with what it leaves unchanged. -/
theorem step_next_cases {s t : State} (h : step s = .next t) :
    (s.fault.cause ≠ .none ∧ t = s) ∨ (s.fault.cause = .none ∧ CycleFaulted s t) ∨ CycleCompleted s t := by
  rcases step_cases s with ⟨hh, e⟩ | ⟨hr, -, e⟩ | ⟨hfetch, e⟩ <;> rw [e] at h
  · cases h
    exact .inl ⟨s.halted_iff.1 hh, rfl⟩
  · cases h
    exact .inr (.inl ⟨s.not_halted_iff.1 hr, .fetchOob, _, _, by decide, fun _ => rfl, fun e => absurd rfl e, rfl⟩)
  · have hc : s.fault.cause = .none := s.not_halted_iff.1 hfetch.1
    obtain ⟨u, hu, ⟨c, info, hcause, hne, rfl⟩ | hf⟩ := execWord_cases s.wordAtPc s
    · rw [s.beginCycle_eq, hu, endOutcome, State.endCycle_faulted (by simpa using hcause)] at h
      cases h
      exact .inr (.inl ⟨hc, c, _, info, hcause, fun e => absurd e hne, fun _ => rfl, rfl⟩)
    · have hrun : u.halted = false := u.not_halted_iff.2 (hf.fault_eq ▸ hc)
      rw [s.beginCycle_eq, hu, endOutcome, State.endCycle_running hrun] at h
      cases h
      exact .inr (.inr ⟨hfetch, u, hu, hf, rfl⟩)

theorem CycleFaulted.cause_ne {s t : State} (h : CycleFaulted s t) : t.fault.cause ≠ .none := by
  obtain ⟨c, w, info, hc, -, -, rfl⟩ := h
  exact hc

theorem CycleCompleted.fault_eq {s t : State} (h : CycleCompleted s t) : t.fault = s.fault := by
  obtain ⟨-, u, -, hf, rfl⟩ := h
  exact hf.fault_eq

theorem CycleCompleted.cause_eq {s t : State} (h : CycleCompleted s t) : t.fault.cause = .none := by
  rw [h.fault_eq]
  exact s.not_halted_iff.1 h.1.1

/-! ### Faults and the halted core -/

/-- Settles O9: a step that leaves a fault on a running core is the fault entry. -/
theorem faultingCycleCommitsNothing : Obligations.FaultingCycleCommitsNothing := by
  unfold Obligations.FaultingCycleCommitsNothing
  intro s t hs h ht
  obtain ⟨hh, -⟩ | ⟨-, c, w, info, -, hfetch, hexec, rfl⟩ | hdone := step_next_cases h
  · exact absurd hs hh
  · exact ⟨rfl, rfl, hfetch, hexec, step_halted ht⟩
  · exact absurd hdone.cause_eq ht

/-- Settles O6: a halted step is the identity, SetKeypad and ClearDirty keep FAULT, and a restored state brings its
own. -/
theorem haltedUntilInitOrRestore : Obligations.HaltedUntilInitOrRestore := by
  unfold Obligations.HaltedUntilInitOrRestore
  refine ⟨fun s => step_halted, fun font => ⟨fun s op hs h => ?leaves, fun s => rfl, fun s u hu hc => ?restores⟩⟩
  case leaves =>
    cases op with
    | init => exact .inl rfl
    | boot rom => exact .inr (.inl ⟨rom, rfl⟩)
    | setKeypad k => exact absurd h hs
    | clearDirty => exact absurd h hs
    | step =>
      rw [hostOp, step_halted hs] at h
      exact absurd h hs
    | restore u =>
      obtain ⟨-, hr⟩ | ⟨-, hr⟩ := hostRestore_cases u s
      · rw [hostOp, hr] at h
        exact .inr (.inr ⟨u, rfl, h⟩)
      · rw [hostOp, hr] at h
        exact absurd h hs
  case restores =>
    rw [hostOp, hostRestore, if_pos hc]
    exact hu

/-! ### The fetch -/

/-- The word of two bytes is 256 times the first plus the second (20_memory.md R55). -/
theorem toNat_append_bytes (hi lo : Byte) : (hi ++ lo : Word).toNat = hi.toNat * 256 + lo.toNat := by
  rw [BitVec.toNat_append, ← Nat.shiftLeft_add_eq_or_of_lt lo.isLt, Nat.shiftLeft_eq]

/-- Settles O7: a fetch in range reads the word at PC, whose value is that of its two bytes; one out of range is a
fault entry. -/
theorem fetchIsBigEndianOrFaults : Obligations.FetchIsBigEndianOrFaults := by
  unfold Obligations.FetchIsBigEndianOrFaults
  intro s
  refine ⟨fun hpc => ⟨s.wordAtPc, s.fetch_ok hpc, toNat_append_bytes _ _⟩, fun hc hpc => ?_⟩
  rw [step_fetchOob hc hpc, State.enterFault_eq]

/-! ### Timers and AWAIT -/

theorem State.ticked_dt_toNat (s : State) : s.ticked.dt.toNat = s.dt.toNat - 1 := by
  rw [← s.tick_eq]
  exact tickDown_toNat s.dt

theorem State.ticked_st_toNat (s : State) : s.ticked.st.toNat = s.st.toNat - 1 := by
  rw [← s.tick_eq]
  exact tickDown_toNat s.st

/-- Settles O8: the execute step of an unmapped word is the identity, between the advance and the tick. -/
theorem unmappedWordIsNoOp : Obligations.UnmappedWordIsNoOp := by
  unfold Obligations.UnmappedWordIsNoOp
  intro s hs hd
  cases hdec : decode s.wordAtPc with
  | instr i => exact absurd hdec (hd i)
  | unmapped u =>
    refine ⟨s.advanced.ticked, ?_, rfl, rfl, State.ticked_dt_toNat _, State.ticked_st_toNat _, ?_⟩
    · rw [step_fetches hs, execWord_unmapped hdec, endOutcome, State.endCycle_running (s := s.advanced) hs.1]
    · exact ((frame_advanced s).append (frame_ticked _)).mono (by decide)

/-- Settles O11: a completed cycle ticks what the execute step left, by its frame or by Fx15 and Fx18. -/
theorem timersTickInCompletedCycles : Obligations.TimersTickInCompletedCycles := by
  unfold Obligations.TimersTickInCompletedCycles
  intro s t h
  obtain ⟨hh, rfl⟩ | ⟨hs, hfault⟩ | hdone := step_next_cases h
  · exact ⟨fun _ => ⟨rfl, rfl⟩, fun hs => absurd hs hh⟩
  · refine ⟨fun _ => ?_, fun _ ht => absurd ht hfault.cause_ne⟩
    obtain ⟨c, w, info, -, -, -, rfl⟩ := hfault
    exact ⟨rfl, rfl⟩
  · have ht := hdone.cause_eq
    refine ⟨fun hstop => hstop.elim (absurd (hdone.fault_eq ▸ ht)) (absurd ht), fun _ _ => ?_⟩
    obtain ⟨-, u, hu, hf, rfl⟩ := hdone
    rw [State.ticked_dt_toNat, State.ticked_st_toNat]
    refine ⟨fun x hx => ?_, fun hx => ?_, fun x hx => ?_, fun hx => ?_⟩
    · rw [execWord_instr hx] at hu
      cases hu
      rfl
    · rw [hf.dt_eq hx]
      rfl
    · rw [execWord_instr hx] at hu
      cases hu
      rfl
    · rw [hf.st_eq hx]
      rfl

/-- Settles O12: only Fx0A writes AWAIT, and it raises it exactly where no key is pressed. -/
theorem awaitMarksStalledKeyWait : Obligations.AwaitMarksStalledKeyWait := by
  unfold Obligations.AwaitMarksStalledKeyWait
  intro s t hs h
  constructor
  · intro hawait
    obtain ⟨hh, -⟩ | ⟨-, c, w, info, -, -, -, rfl⟩ | ⟨hfetch, u, hu, hf, rfl⟩ := step_next_cases h
    · exact absurd hs hh
    · exact absurd hawait (by simp)
    · have hu_await : u.await = true := hawait
      obtain ⟨x, hi⟩ : ∃ x, decode s.wordAtPc = .instr (.ldVxK x) := by
        by_contra hn
        exact absurd ((hf.await_eq fun x hx => hn ⟨x, hx⟩).symm.trans hu_await) (by simp)
      rw [execWord_instr hi] at hu
      obtain ⟨k, -, hx⟩ | ⟨hnone, -⟩ := execLdVxK_cases x s.advanced
      · cases hx.symm.trans hu
        exact absurd hu_await (by simp)
      · exact ⟨hfetch, ⟨x, hi⟩, s.advanced.firstPressed_none.1 hnone⟩
  · rintro ⟨hfetch, ⟨x, hx⟩, hkeys⟩
    obtain ⟨k, hk, -⟩ | ⟨-, hstall⟩ := execLdVxK_cases x s.advanced
    · rw [s.advanced.firstPressed_none.2 hkeys] at hk
      cases hk
    · have hexec : exec (.ldVxK x) s.advanced = .next (s.advanced.stepBack.setAwait true) := hstall
      rw [step_fetches hfetch, execWord_instr hx, hexec] at h
      cases h
      simp

/-! ### Registers, bytes, slots and pixels through the execute step -/

/-- A general register outside the writes column of 10_state.md R23 keeps its value. -/
theorem exec_getV_unwritten {i : Instr} {s t : State} {r : RegIdx} (h : exec i s = .next t) (hf : Frame i.writes s t)
    (hr : i.writesReg r = false) : t.getV r = s.getV r := by
  cases i with
  | ldImm x y | addImm x y | ldReg x y | orReg x y | andReg x y | xorReg x y | rnd x y | ldVxDT x =>
    cases h
    exact s.getV_setV_other (of_decide_eq_false hr) _
  | addReg x y | subReg x y | shr x y | subnReg x y | shl x y =>
    cases h
    obtain ⟨hx, hvf⟩ : r ≠ x ∧ r ≠ VF := by simpa [Instr.writesReg] using hr
    simp [hx, hvf]
  | drw x y n =>
    have hvf : r ≠ VF := of_decide_eq_false hr
    obtain ⟨f, hx⟩ | hx := execDrw_cases x y n s
    · cases hx.symm.trans h
      rfl
    · cases hx.symm.trans h
      simp [hvf]
  | ldVxK x =>
    obtain ⟨k, -, hx⟩ | ⟨-, hx⟩ := execLdVxK_cases x s
    · cases hx.symm.trans h
      exact s.getV_setV_other (of_decide_eq_false hr) _
    · cases hx.symm.trans h
      rfl
  | loadV x =>
    have hlt : ¬r.toNat ≤ x.toNat := of_decide_eq_false hr
    obtain ⟨f, hx⟩ | hx := execLoadV_cases x s
    · cases hx.symm.trans h
      rfl
    · cases hx.symm.trans h
      rw [State.getV, State.setRegs_v, loadRegs_getElem, if_neg (by rw [Memory.bytesAt_length]; omega)]
      rfl
  | _ => exact hf .v (by simp [Instr.writes]) r

/-- A store at I leaves every byte outside its range. -/
theorem storeAtI_byteAt_outside {i : Instr} {bs : List Byte} {s t : State} {a : Nat} (h : storeAtI i bs s = .next t)
    (ha : ¬(s.i.toNat ≤ a ∧ a < s.i.toNat + bs.length)) : t.mem.byteAt a = s.mem.byteAt a := by
  obtain ⟨f, hx⟩ | hx := storeAtI_cases i bs s
  · cases hx.symm.trans h
    rfl
  · cases hx.symm.trans h
    exact Memory.byteAt_putBytes_outside bs _ _ ha

/-- A byte of memory that neither Fx33 nor Fx55 stores to keeps its value. -/
theorem exec_byteAt_outside {i : Instr} {s t : State} {a : Nat} (h : exec i s = .next t) (hf : Frame i.writes s t)
    (ha : ¬((∃ x, i = .ldBVx x ∧ s.i.toNat ≤ a ∧ a ≤ s.i.toNat + 2) ∨
            (∃ x, i = .storeV x ∧ s.i.toNat ≤ a ∧ a ≤ s.i.toNat + x.toNat))) :
    t.mem.byteAt a = s.mem.byteAt a := by
  by_cases hm : .mem ∈ i.writes
  · obtain ⟨x, rfl⟩ | ⟨x, rfl⟩ := Instr.mem_mem_writes.1 hm
    · refine storeAtI_byteAt_outside h fun hin => ha (.inl ⟨x, rfl, hin.1, ?_⟩)
      exact Nat.le_of_lt_succ hin.2
    · refine storeAtI_byteAt_outside h fun hin => ha (.inr ⟨x, rfl, hin.1, ?_⟩)
      rw [s.regRange_length] at hin
      omega
  · exact hf .mem hm a

/-- A stack slot other than slot SP of 2nnn keeps its value. -/
theorem exec_stack_outside {i : Instr} {s t : State} (h : exec i s = .next t) (hf : Frame i.writes s t) (k : Nat)
    (hk : k < 16) (hn : ¬((∃ nnn, i = .call nnn) ∧ k = s.sp.val)) : t.stack[k] = s.stack[k] := by
  by_cases hm : .stack ∈ i.writes
  · obtain ⟨nnn, rfl⟩ := Instr.stack_mem_writes.1 hm
    obtain hx | ⟨hs, n, hx⟩ := execCall_cases nnn s
    · cases hx.symm.trans h
      rfl
    · cases hx.symm.trans h
      exact Vector.getElem_set_ne hs hk fun e => hn ⟨⟨nnn, rfl⟩, e.symm⟩
  · exact hf .stack hm k hk

/-- A pixel outside the sprite of Dxyn, and not cleared by 00E0, keeps its value. -/
theorem exec_isOn_outside {i : Instr} {s t : State} {px py : Nat} (h : exec i s = .next t) (hf : Frame i.writes s t)
    (hn : ¬(i = .cls ∨ ∃ x y n, i = .drw x y n ∧ spriteCovers s x y n px py = true)) :
    t.pix.isOn px py = s.pix.isOn px py := by
  by_cases hm : .pix ∈ i.writes
  · obtain rfl | ⟨x, y, n, rfl⟩ := Instr.pix_mem_writes.1 hm
    · exact absurd (.inl rfl) hn
    · have hc : spriteCovers s x y n px py = false := by
        by_contra hc
        exact hn (.inr ⟨x, y, n, rfl, by simpa using hc⟩)
      obtain ⟨f, hx⟩ | hx := execDrw_cases x y n s
      · cases hx.symm.trans h
        rfl
      · cases hx.symm.trans h
        simp [spriteRaster_isOn, hc]
  · exact hf .pix hm px py

/-- Settles O13: the frame of the execute step, refined for the four tables by what their writers do. -/
theorem instructionsWriteOnlyTheirRule : Obligations.InstructionsWriteOnlyTheirRule := by
  unfold Obligations.InstructionsWriteOnlyTheirRule
  intro i s t _ h ht
  obtain ⟨u, hu, ⟨c, info, hc, -, rfl⟩ | hf⟩ := exec_cases i s
  · cases hu.symm.trans h
    exact absurd ht hc
  · cases hu.symm.trans h
    exact ⟨hf, fun r => exec_getV_unwritten h hf, fun a => exec_byteAt_outside h hf, exec_stack_outside h hf,
      fun px py => exec_isOn_outside h hf⟩

/-! ### The host between cycles -/

/-- A cycle never writes KEY (40_cycle.md R112). -/
theorem step_key {s t : State} (h : step s = .next t) : t.key = s.key := by
  obtain ⟨-, rfl⟩ | ⟨-, c, w, info, -, -, -, rfl⟩ | ⟨-, u, -, hf, rfl⟩ := step_next_cases h
  · rfl
  · rfl
  · exact hf.key_eq

/-- Settles O27: each move is one setter, with the setter's frame, and no step writes KEY. -/
theorem hostWritesKeypadAndDirty : Obligations.HostWritesKeypadAndDirty := by
  unfold Obligations.HostWritesKeypadAndDirty
  exact ⟨fun font s k => ⟨hostSetKeypad k s, rfl, rfl, frame_setKey s k⟩, fun s t => step_key,
    fun font s => ⟨hostClearDirty s, rfl, rfl, frame_setDirty s false⟩⟩

/-- Settles O26: Restore accepts exactly the consistent snapshots, and the draws of a state put back give that state. -/
theorem restoreReplacesWholeState : Obligations.RestoreReplacesWholeState := by
  unfold Obligations.RestoreReplacesWholeState
  intro font u s hw
  refine ⟨fun hkw => ?accepted, fun ha hkw => ?refused⟩
  case accepted =>
    have hc : u.consistent = true := u.consistent_iff.2 ⟨hw, hkw⟩
    have hr : ∀ v, hostOp font (.restore u) v = (u.setDraws v.draws, none) := fun v => by
      rw [hostOp, hostRestore, if_pos hc]
    exact ⟨⟨_, hr s, rfl⟩, hr u⟩
  case refused =>
    have hc : ¬u.consistent = true := fun hc => hkw ((u.consistent_iff.1 hc).2 ha)
    rw [hostOp, hostRestore, if_neg hc]

theorem Cause.code_eq_zero_iff (c : Cause) : c.code = 0#3 ↔ c = .none := by
  cases c <;> decide

/-- SOUND is reported exactly when ST is not 0 (60_exceptions.md R311). -/
theorem hostObserve_sound (s : State) : (hostObserve s).sound = true ↔ s.st.toNat ≠ 0 :=
  decide_eq_true_iff.trans (not_congr BitVec.toNat_inj.symm)

/-- A pixel that is on has every bit of its word set, one that is off has none (10_state.md R31). -/
theorem presentPixel_getLsbD {n k : Nat} (h : k < n) (on : Bool) : (presentPixel n on).getLsbD k = on := by
  cases on <;> simp [presentPixel, h]

/-- Settles O28: Observe copies the elements; SOUND, HALTED and the code of CAUSE are read by their own lemmas. -/
theorem observeReportsState : Obligations.ObserveReportsState := by
  unfold Obligations.ObserveReportsState
  exact ⟨fun s => ⟨rfl, rfl, rfl, hostObserve_sound s, s.halted_iff, rfl, Cause.code_eq_zero_iff _, rfl, rfl, rfl⟩,
    fun n k h => ⟨presentPixel_getLsbD h true, presentPixel_getLsbD h false⟩⟩

end Sys2Proof.Machine

/-! PROOFS. Control transfer (41_control_flow.md): the decoder on encoded words, the return, the jumps, the call and the skips. -/

namespace Sys2Proof

/-! ### The decoder on encoded words -/

/-- Decoding keeps every operand of an encoded instruction (30_encoding.md R71, R72, R76). -/
theorem decode_encode (i : Instr) : decode (encode i) = .instr i := by
  cases i with
  | cls | ret => rfl
  | jp nnn | call nnn | ldI nnn | jpV0 nnn | seImm x kk | sneImm x kk | ldImm x kk | addImm x kk | rnd x kk
  | seReg x y | sneReg x y | drw x y n => simp [encode, decode]
  | ldReg x y | orReg x y | andReg x y | xorReg x y | addReg x y | subReg x y | shr x y | subnReg x y | shl x y =>
    simp [encode, decode, decode8]
  | skp x | sknp x => simp [encode, decode, decodeE]
  | ldVxDT x | ldVxK x | ldDTVx x | ldSTVx x | addIVx x | ldFVx x | ldBVx x | storeV x | loadV x =>
    simp [encode, decode, decodeF]

end Sys2Proof

namespace Sys2Proof.Machine

/-! ### Addresses -/

theorem zextAddr_toNat (nnn : Addr12) : (zextAddr nnn).toNat = nnn.toNat :=
  BitVec.toNat_setWidth_of_le (by decide)

/-- The sum of Bnnn is exact: nnn + V[0] stays below 2^16 (41_control_flow.md R148). -/
theorem addrPlusV0_toNat (nnn : Addr12) (s : State) :
    (addrPlusV0 nnn s).toNat = nnn.toNat + (s.getV 0x0#4).toNat := by
  have hn : nnn.toNat < 4096 := nnn.isLt
  have hv : (s.getV 0x0#4).toNat < 256 := (s.getV 0x0#4).isLt
  rw [addrPlusV0, BitVec.toNat_ofNat, Nat.mod_eq_of_lt (by omega)]

/-! ### The value a skip leaves in PC -/

theorem State.skipIf_pc (s : State) (p : Prop) [Decidable p] :
    (s.skipIf (decide p)).pc = if p then s.pc + 2#16 else s.pc := by
  by_cases h : p
  · simp [State.skipIf, State.advance, h]
  · simp [State.skipIf, h]

theorem State.skipIf_not_pc (s : State) (p : Prop) [Decidable p] :
    (s.skipIf (decide ¬p)).pc = if p then s.pc else s.pc + 2#16 := by
  rw [State.skipIf_pc, ite_not]

/-! ### The fault a meaning raises -/

theorem State.raise_eq_faultedWith (s : State) (c : Cause) (i : Instr) (info : Word) :
    s.raise c i info = s.faultedWith c (encode i) info := rfl

/-! ### Return, jump and call -/

theorem exec_ret_pop (s : State) (h : 0 < s.sp.val) :
    exec .ret s = .next ((s.setSp ⟨s.sp.val - 1, by omega⟩).setPc s.stack[s.sp.val - 1]) := by
  rw [exec, execRet, s.pop_some h]

theorem exec_ret_empty (s : State) (h : s.sp.val = 0) :
    exec .ret s = .next (s.faultedWith .stackUnderflow (encode .ret) 0#16) := by
  rw [exec, execRet, s.pop_empty h, State.raise_eq_faultedWith]

theorem exec_call_push (nnn : Addr12) (s : State) (h : s.sp.val < 16) :
    exec (.call nnn) s = .next (((s.setStack (s.stack.set s.sp.val s.pc h)).setSp
      ⟨s.sp.val + 1, by omega⟩).setPc (zextAddr nnn)) := by
  rw [exec, execCall, s.push_room _ h]

theorem exec_call_full (nnn : Addr12) (s : State) (h : s.sp.val = 16) :
    exec (.call nnn) s = .next (s.faultedWith .stackOverflow (encode (.call nnn)) 16#16) := by
  rw [exec, execCall, s.push_full _ h, State.raise_eq_faultedWith]

/-- Settles O29: a return pops the slot below SP, or raises on an empty stack. -/
theorem returnPopsStack : Obligations.ReturnPopsStack := by
  unfold Obligations.ReturnPopsStack
  refine ⟨decode_encode .ret, fun s => ⟨fun h => ?pops, exec_ret_empty s⟩⟩
  case pops =>
    refine ⟨_, exec_ret_pop s h, rfl, Vector.getElem?_eq_getElem _, ?_⟩
    exact ((frame_setSp s _).append (frame_setPc _ _)).mono (by decide)

/-- Settles O30: a jump is one write of PC. -/
theorem jumpSetsPc : Obligations.JumpSetsPc := by
  unfold Obligations.JumpSetsPc
  exact fun s nnn => ⟨decode_encode (.jp nnn), _, rfl, zextAddr_toNat nnn, frame_setPc s _⟩

/-- Settles O31: a call pushes the advanced PC in slot SP, or raises on a full stack. -/
theorem callPushesReturnAddress : Obligations.CallPushesReturnAddress := by
  unfold Obligations.CallPushesReturnAddress
  refine fun s nnn => ⟨decode_encode (.call nnn), fun h => ?pushes, exec_call_full nnn s⟩
  case pushes =>
    refine ⟨_, exec_call_push nnn s h, Vector.getElem?_set_self h, fun k hk => Vector.getElem?_set_ne h hk.symm, rfl,
      zextAddr_toNat nnn, ?_⟩
    exact (((frame_setStack s _).append (frame_setSp _ _)).append (frame_setPc _ _)).mono (by decide)

/-! ### Skips and the jump by V[0] -/

/-- Settles O33: both are skips, the second on the negated comparison. -/
theorem immediateSkips : Obligations.ImmediateSkips := by
  unfold Obligations.ImmediateSkips
  exact fun s x kk => ⟨decode_encode (.seImm x kk), decode_encode (.sneImm x kk),
    ⟨_, rfl, s.skipIf_pc _, frame_skipIf s _⟩, ⟨_, rfl, s.skipIf_not_pc _, frame_skipIf s _⟩⟩

/-- Settles O34: both are skips, the second on the negated comparison. -/
theorem registerSkips : Obligations.RegisterSkips := by
  unfold Obligations.RegisterSkips
  exact fun s x y => ⟨decode_encode (.seReg x y), decode_encode (.sneReg x y),
    ⟨_, rfl, s.skipIf_pc _, frame_skipIf s _⟩, ⟨_, rfl, s.skipIf_not_pc _, frame_skipIf s _⟩⟩

/-- Settles O35: the jump is one write of PC, with the exact sum. -/
theorem jumpAddsV0 : Obligations.JumpAddsV0 := by
  unfold Obligations.JumpAddsV0
  exact fun s nnn => ⟨decode_encode (.jpV0 nnn), _, rfl, addrPlusV0_toNat nnn s, frame_setPc s _⟩

end Sys2Proof.Machine

/-! PROOFS. Register arithmetic and logic (42_alu.md): the flags as numbers, the two writes of a flagged instruction in the order of R171, the loads, the logic operations, the sum, the differences and the shifts. -/

namespace Sys2Proof.Machine

/-! ### The flags and the byte operations as numbers -/

theorem boolByte_toNat (p : Prop) [Decidable p] : (boolByte (decide p)).toNat = if p then 1 else 0 := by
  by_cases h : p
  · simp [boolByte, h]
  · simp [boolByte, h]

theorem carryFlag_toNat (a b : Byte) : (carryFlag a b).toNat = if 255 < a.toNat + b.toNat then 1 else 0 :=
  boolByte_toNat _

theorem greaterFlag_toNat (a b : Byte) : (greaterFlag a b).toNat = if b.toNat < a.toNat then 1 else 0 :=
  boolByte_toNat _

theorem lowBitFlag_toNat (a : Byte) : (lowBitFlag a).toNat = a.toNat % 2 := by
  rw [lowBitFlag, BitVec.toNat_and]
  exact Nat.and_one_is_mod _

theorem highBitFlag_toNat (a : Byte) : (highBitFlag a).toNat = a.toNat / 128 := by
  have ha : a.toNat < 256 := a.isLt
  have hbit : (highBitFlag a).toNat = a.toNat >>> 7 % 2 := by
    rw [highBitFlag, BitVec.toNat_and, BitVec.toNat_ushiftRight]
    exact Nat.and_one_is_mod _
  rw [hbit, Nat.shiftRight_eq_div_pow]
  omega

theorem byte_sub_toNat (a b : Byte) : (a - b).toNat = (a.toNat + (256 - b.toNat)) % 256 := by
  rw [BitVec.toNat_sub, Nat.add_comm]

theorem byte_shiftRight_one_toNat (a : Byte) : (a >>> 1).toNat = a.toNat / 2 := by
  rw [BitVec.toNat_ushiftRight, Nat.shiftRight_eq_div_pow]

theorem byte_shiftLeft_one_toNat (a : Byte) : (a <<< 1).toNat = a.toNat * 2 % 256 := by
  rw [BitVec.toNat_shiftLeft, Nat.shiftLeft_eq]

/-! ### One register write, and two in a row -/

section Writes
variable (s : State) {x p q : RegIdx} (b c : Byte)

theorem setV_keeps_rest : (∀ r, r ≠ x → (s.setV x b).getV r = s.getV r) ∧ Frame [.v] s (s.setV x b) :=
  ⟨fun _ hr => s.getV_setV_other hr b, frame_setV s x b⟩

theorem setV_setV_keeps_rest :
    (∀ r, r ≠ p → r ≠ q → ((s.setV p b).setV q c).getV r = s.getV r) ∧ Frame [.v] s ((s.setV p b).setV q c) :=
  ⟨fun _ hp hq => by rw [State.getV_setV_other _ hq, State.getV_setV_other _ hp],
    (frame_setV s p b).trans (frame_setV _ q c)⟩

/-- The rest of the state when the flag b is written first and the result c after it. -/
theorem flag_then_result_keeps_rest :
    (∀ r, r ≠ x → r ≠ VF → ((s.setV VF b).setV x c).getV r = s.getV r) ∧ Frame [.v] s ((s.setV VF b).setV x c) :=
  ⟨fun r hx hvf => (setV_setV_keeps_rest s b c).1 r hvf hx, (setV_setV_keeps_rest s b c).2⟩

theorem getV_first_of_setV_setV (h : p ≠ q) : ((s.setV p b).setV q c).getV p = b := by
  rw [State.getV_setV_other _ h, State.getV_setV_same]

end Writes

/-! ### The flagged difference of 8xy5 and 8xy7 -/

/-- VF <- the flag of V[a] > V[b], then V[x] <- V[a] - V[b] read after it: 8xy5 with a, b = x, y and 8xy7 with
a, b = y, x (42_alu.md R179, R181). -/
def State.subFlagged (s : State) (x a b : RegIdx) : State :=
  let t := s.setV VF (greaterFlag (s.getV a) (s.getV b))
  t.setV x (t.getV a - t.getV b)

section SubFlagged
variable (s : State) (x y a b : RegIdx)

theorem exec_subReg : exec (.subReg x y) s = .next (s.subFlagged x x y) := rfl

theorem exec_subnReg : exec (.subnReg x y) s = .next (s.subFlagged x y x) := rfl

theorem subFlagged_getV_flag {x : RegIdx} (h : x ≠ VF) :
    (s.subFlagged x a b).getV VF = greaterFlag (s.getV a) (s.getV b) :=
  getV_first_of_setV_setV s _ _ h.symm

/-- An operand that is VF is the new flag; any other is the old register. -/
theorem subFlagged_getV_result : ((s.subFlagged x a b).getV x).toNat =
    ((if a = VF then greaterFlag (s.getV a) (s.getV b) else s.getV a).toNat +
      (256 - (if b = VF then greaterFlag (s.getV a) (s.getV b) else s.getV b).toNat)) % 256 := by
  rw [State.subFlagged, State.getV_setV_same, byte_sub_toNat, State.getV_setV, State.getV_setV]

theorem subFlagged_getV_result_self : ((s.subFlagged x a a).getV x).toNat = 0 := by
  rw [State.subFlagged, State.getV_setV_same, BitVec.sub_self]
  rfl

theorem subFlagged_keeps_rest :
    (∀ r, r ≠ x → r ≠ VF → (s.subFlagged x a b).getV r = s.getV r) ∧ Frame [.v] s (s.subFlagged x a b) :=
  flag_then_result_keeps_rest s _ _

end SubFlagged

/-! ### The sum, the differences and the shifts -/

/-- Settles O38: the sum is written first and the carry over it, so the carry survives in VF. -/
theorem addSetsCarry : Obligations.AddSetsCarry := by
  unfold Obligations.AddSetsCarry
  refine fun s x y => ⟨decode_encode (.addReg x y), _, rfl, fun hx => ?sum, ?carry, setV_setV_keeps_rest s _ _⟩
  case sum => rw [getV_first_of_setV_setV s _ _ hx, BitVec.toNat_add]
  case carry => rw [State.getV_setV_same, carryFlag_toNat]

/-- Settles O39: the flagged difference V[x] - V[y]. -/
theorem subtractSetsGreaterFlag : Obligations.SubtractSetsGreaterFlag := by
  unfold Obligations.SubtractSetsGreaterFlag
  refine fun s x y => ⟨decode_encode (.subReg x y), _, _, exec_subReg s x y, greaterFlag_toNat _ _,
    fun hx => ?flag, fun hx hy => ?neither, fun hx hy => ?subtrahend, fun hx hy => ?minuend, fun hx hy => ?both,
    subFlagged_keeps_rest s x x y⟩
  case flag => rw [subFlagged_getV_flag s x y hx]
  case neither => rw [subFlagged_getV_result, if_neg hx, if_neg hy]
  case subtrahend => rw [subFlagged_getV_result, if_neg hx, if_pos hy]
  case minuend =>
    subst hx
    rw [subFlagged_getV_result, if_pos rfl, if_neg hy]
  case both =>
    subst hx hy
    exact subFlagged_getV_result_self s VF VF

/-- Settles O40: the flagged difference V[y] - V[x]. -/
theorem reverseSubtractSetsGreaterFlag : Obligations.ReverseSubtractSetsGreaterFlag := by
  unfold Obligations.ReverseSubtractSetsGreaterFlag
  refine fun s x y => ⟨decode_encode (.subnReg x y), _, _, exec_subnReg s x y, greaterFlag_toNat _ _,
    fun hx => ?flag, fun hx hy => ?neither, fun hx hy => ?minuend, fun hx hy => ?subtrahend, fun hx hy => ?both,
    subFlagged_keeps_rest s x y x⟩
  case flag => rw [subFlagged_getV_flag s y x hx]
  case neither => rw [subFlagged_getV_result, if_neg hy, if_neg hx]
  case minuend => rw [subFlagged_getV_result, if_pos hy, if_neg hx]
  case subtrahend =>
    subst hx
    rw [subFlagged_getV_result, if_neg hy, if_pos rfl]
  case both =>
    subst hx hy
    exact subFlagged_getV_result_self s VF VF

/-- 8xy6 whatever y is: the flag, then the halved value read after it (42_alu.md R180). -/
theorem exec_shr (s : State) (x y : RegIdx) : exec (.shr x y) s =
    .next ((s.setV VF (lowBitFlag (s.getV x))).setV x ((s.setV VF (lowBitFlag (s.getV x))).getV x >>> 1)) := rfl

/-- 8xyE whatever y is: the flag, then the doubled value read after it (42_alu.md R182). -/
theorem exec_shl (s : State) (x y : RegIdx) : exec (.shl x y) s =
    .next ((s.setV VF (highBitFlag (s.getV x))).setV x ((s.setV VF (highBitFlag (s.getV x))).getV x <<< 1)) := rfl

/-- Settles O41: the shifted value is that of V[x], or that of the flag when x = 0xF. -/
theorem shiftsSetShiftedOutBit : Obligations.ShiftsSetShiftedOutBit := by
  unfold Obligations.ShiftsSetShiftedOutBit
  refine fun s x y => ⟨decode_encode (.shr x y), decode_encode (.shl x y),
    ⟨_, exec_shr s x y, exec_shr s x, fun hx => ⟨?halved, ?low⟩, fun hx => ?halvedFlag,
      flag_then_result_keeps_rest s _ _⟩,
    ⟨_, exec_shl s x y, exec_shl s x, fun hx => ⟨?doubled, ?high⟩, fun hx => ?doubledFlag,
      flag_then_result_keeps_rest s _ _⟩⟩
  case halved => rw [State.getV_setV_same, State.getV_setV_other _ hx, byte_shiftRight_one_toNat]
  case low => rw [getV_first_of_setV_setV s _ _ hx.symm, lowBitFlag_toNat]
  case halvedFlag =>
    subst hx
    rw [State.getV_setV_same, State.getV_setV_same, byte_shiftRight_one_toNat, lowBitFlag_toNat]
    omega
  case doubled => rw [State.getV_setV_same, State.getV_setV_other _ hx, byte_shiftLeft_one_toNat]
  case high => rw [getV_first_of_setV_setV s _ _ hx.symm, highBitFlag_toNat]
  case doubledFlag =>
    subst hx
    have hv : (s.getV VF).toNat < 256 := (s.getV VF).isLt
    rw [State.getV_setV_same, State.getV_setV_same, byte_shiftLeft_one_toNat, highBitFlag_toNat]
    split <;> omega

/-! ### Loads and logic -/

/-- Settles O36: each is one write of V[x]. -/
theorem registerLoads : Obligations.RegisterLoads := by
  unfold Obligations.RegisterLoads
  refine fun s x y kk => ⟨decode_encode (.ldImm x kk), decode_encode (.addImm x kk), decode_encode (.ldReg x y),
    ⟨_, rfl, s.getV_setV_same x kk, setV_keeps_rest s _⟩, ⟨_, rfl, ?sum, setV_keeps_rest s _⟩,
    ⟨_, rfl, s.getV_setV_same x _, setV_keeps_rest s _⟩⟩
  case sum => rw [State.getV_setV_same, BitVec.toNat_add]

/-- Settles O37: each is one write of V[x]. -/
theorem registerLogic : Obligations.RegisterLogic := by
  unfold Obligations.RegisterLogic
  refine fun s x y => ⟨decode_encode (.orReg x y), decode_encode (.andReg x y), decode_encode (.xorReg x y),
    ⟨_, rfl, fun k => ?or, setV_keeps_rest s _⟩, ⟨_, rfl, fun k => ?and, setV_keeps_rest s _⟩,
    ⟨_, rfl, fun k => ?xor, setV_keeps_rest s _⟩⟩
  case or => rw [State.getV_setV_same, BitVec.getLsbD_or]
  case and => rw [State.getV_setV_same, BitVec.getLsbD_and]
  case xor => rw [State.getV_setV_same, BitVec.getLsbD_xor]

end Sys2Proof.Machine

/-! PROOFS. The index register and memory transfer (43_index_memory.md): the addresses written to I, the checked store at I with both its outcomes, the decimal digits, the register range stored and the one loaded. -/

namespace Sys2Proof.Machine

/-! ### Addresses and the fault of an access at I -/

theorem indexPlus_toNat (s : State) (x : RegIdx) : (indexPlus s x).toNat = (s.i.toNat + (s.getV x).toNat) % 65536 :=
  BitVec.toNat_ofNat ..

/-- The glyph address is exact for every byte: it stays below 2^16 (43_index_memory.md R212). -/
theorem glyphAddr_toNat (d : Byte) : (glyphAddr d).toNat = 0x50 + 5 * d.toNat := by
  have hd : d.toNat < 256 := d.isLt
  rw [glyphAddr, BitVec.toNat_ofNat, Nat.mod_eq_of_lt (by omega)]

/-- FINFO of an access from w on: w itself where it is above 0xFFF, else 0x1000 (60_exceptions.md R303). -/
theorem infoOfAddr_firstOob (w : Word) :
    infoOfAddr (if 0xFFF < w.toNat then w.toNat else 0x1000) = if 0xFFF < w.toNat then w else 0x1000#16 := by
  rw [infoOfAddr, apply_ite (BitVec.ofNat 16), BitVec.ofNat_toNat, BitVec.setWidth_eq]

/-- Settles O43: each is one write of I. -/
theorem indexRegisterWrites : Obligations.IndexRegisterWrites := by
  unfold Obligations.IndexRegisterWrites
  exact fun s nnn x => ⟨decode_encode (.ldI nnn), decode_encode (.addIVx x), decode_encode (.ldFVx x),
    ⟨_, rfl, zextAddr_toNat nnn, frame_setI s _⟩, ⟨_, rfl, indexPlus_toNat s x, frame_setI s _⟩,
    ⟨_, rfl, glyphAddr_toNat _, frame_setI s _⟩⟩

/-! ### The store at I -/

section StoreAtI
variable (i : Instr) {bs : List Byte} {s : State} {n : Nat}

/-- A store of n + 1 bytes whose last address exists: byte k is at I + k, every other byte is kept. -/
theorem storeAtI_stores (hw : s.mem.wf = true) (hlen : bs.length = n + 1) (hfit : s.i.toNat + n ≤ 0xFFF) :
    ∃ t, storeAtI i bs s = .next t ∧ (∀ k, k ≤ n → t.mem.byteAt (s.i.toNat + k) = bs.getD k 0x00#8) ∧
      (∀ a, (a < s.i.toNat ∨ s.i.toNat + n < a) → t.mem.byteAt a = s.mem.byteAt a) ∧ Frame [.mem] s t := by
  have hok : s.mem.writeRange (s.effAddr 0) bs = .ok (s.mem.putBytes s.i.toNat bs) :=
    s.mem.writeRange_ok fun k hk => by rw [State.effAddr]; omega
  have hexec : storeAtI i bs s = .next (s.setMem (s.mem.putBytes s.i.toNat bs)) := by rw [storeAtI, hok]
  refine ⟨_, hexec, fun k hk => ?stored, fun a ha => storeAtI_byteAt_outside hexec (by omega), frame_setMem s _⟩
  case stored =>
    rw [State.setMem_mem, Memory.byteAt_putBytes hw (by omega), if_pos (by omega), Nat.add_sub_cancel_left]

/-- A store of n + 1 bytes whose last address does not exist: MEM_OOB and nothing stored (20_memory.md R54). -/
theorem storeAtI_faults (hlen : bs.length = n + 1) (hoob : 0xFFF < s.i.toNat + n) :
    storeAtI i bs s =
      .next (s.faultedWith .memOob (encode i) (if 0xFFF < s.i.toNat then s.i else 0x1000#16)) := by
  have herr := s.mem.writeRange_error (a := s.i.toNat) (bs := bs) (by omega) (by omega)
  rw [storeAtI, State.effAddr, Nat.add_zero, herr, ← infoOfAddr_firstOob, ← State.raise_eq_faultedWith]

end StoreAtI

/-! ### Fx33 and Fx55 -/

theorem bcdDigits_length (b : Byte) : (bcdDigits b).length = 2 + 1 := rfl

/-- The three digits as numbers: hundreds, tens, ones. -/
theorem bcdDigits_toNat (b : Byte) :
    ((bcdDigits b).getD 0 0x00#8).toNat = b.toNat / 100 ∧ ((bcdDigits b).getD 1 0x00#8).toNat = b.toNat / 10 % 10 ∧
      ((bcdDigits b).getD 2 0x00#8).toNat = b.toNat % 10 := by
  have hb : b.toNat < 256 := b.isLt
  exact ⟨Nat.mod_eq_of_lt (by omega), Nat.mod_eq_of_lt (by omega), Nat.mod_eq_of_lt (by omega)⟩

/-- Settles O44: a store at I of the three digits. -/
theorem bcdStoresDigits : Obligations.BcdStoresDigits := by
  unfold Obligations.BcdStoresDigits
  refine fun s x hw => ⟨decode_encode (.ldBVx x), fun hfit => ?stores,
    storeAtI_faults (.ldBVx x) (bcdDigits_length _)⟩
  case stores =>
    obtain ⟨t, hexec, hstored, hkept⟩ := storeAtI_stores (.ldBVx x) hw (bcdDigits_length (s.getV x)) hfit
    obtain ⟨hundreds, tens, ones⟩ := bcdDigits_toNat (s.getV x)
    refine ⟨t, hexec, ?hundreds, ?tens, ?ones, hkept⟩
    case hundreds => rw [← hundreds, ← hstored 0 (by decide), Nat.add_zero]
    case tens => rw [← tens, ← hstored 1 (by decide)]
    case ones => rw [← ones, ← hstored 2 (by decide)]

/-- Settles O45: a store at I of the register range. -/
theorem storeCopiesRegisters : Obligations.StoreCopiesRegisters := by
  unfold Obligations.StoreCopiesRegisters
  refine fun s x hw => ⟨decode_encode (.storeV x), fun hfit => ?stores,
    storeAtI_faults (.storeV x) (s.regRange_length x)⟩
  case stores =>
    obtain ⟨t, hexec, hstored, hkept⟩ := storeAtI_stores (.storeV x) hw (s.regRange_length x) hfit
    exact ⟨t, hexec, fun k hk => (hstored k.toNat hk).trans (s.regRange_getD hk _), hkept⟩

/-! ### Fx65 -/

/-- The state a completed Fx65 leaves (43_index_memory.md R215). -/
theorem exec_loadV_loads {s : State} {x : RegIdx} (hfit : s.i.toNat + x.toNat ≤ 0xFFF) :
    exec (.loadV x) s = .next (s.setRegs (loadRegs s.v 0 (s.mem.bytesAt s.i.toNat (x.toNat + 1)))) := by
  have hok : s.mem.readRange s.i.toNat (x.toNat + 1) = .ok _ := s.mem.readRange_ok fun k hk => by omega
  rw [exec, execLoadV, State.effAddr, Nat.add_zero, hok]

theorem exec_loadV_faults {s : State} {x : RegIdx} (hoob : 0xFFF < s.i.toNat + x.toNat) :
    exec (.loadV x) s = .next (s.faultedWith .memOob (encode (.loadV x))
      (if 0xFFF < s.i.toNat then s.i else 0x1000#16)) := by
  have herr := s.mem.readRange_error (a := s.i.toNat) (n := x.toNat + 1) (by omega) hoob
  rw [exec, execLoadV, State.effAddr, Nat.add_zero, herr, ← infoOfAddr_firstOob, ← State.raise_eq_faultedWith]

/-- A register the load writes holds its byte of the list. -/
theorem getV_setRegs_loadRegs (s : State) {bs : List Byte} {k : RegIdx} (hk : k.toNat < bs.length) :
    (s.setRegs (loadRegs s.v 0 bs)).getV k = bs.getD k.toNat 0x00#8 := by
  rw [State.getV, State.setRegs_v, loadRegs_getElem, if_pos (by omega), Nat.sub_zero]

/-- Settles O46: a register up to x holds its byte of memory, one above x is outside the writes of Fx65. -/
theorem loadCopiesMemory : Obligations.LoadCopiesMemory := by
  unfold Obligations.LoadCopiesMemory
  refine fun s x => ⟨decode_encode (.loadV x), fun hfit => ?loads, exec_loadV_faults⟩
  case loads =>
    refine ⟨_, exec_loadV_loads hfit, fun k hk => ?loaded, fun k hk => ?kept, frame_setRegs s _⟩
    case loaded =>
      rw [getV_setRegs_loadRegs s (by rw [Memory.bytesAt_length]; omega), Memory.bytesAt_getD _ _ (by omega)]
    case kept =>
      exact exec_getV_unwritten (exec_loadV_loads hfit) (frame_setRegs s _) (decide_eq_false (by omega))

end Sys2Proof.Machine

/-! PROOFS. The display (44_display.md): 00E0, and the state a completed Dxyn leaves with its pixels and its collision flag. -/

namespace Sys2Proof.Machine

/-- Settles O47: the blank screen has no pixel on. -/
theorem clearScreen : Obligations.ClearScreen := by
  unfold Obligations.ClearScreen
  exact ⟨decode_encode .cls, fun s =>
    ⟨_, rfl, Screen.isOn_blank, rfl, (frame_setPix s Screen.blank).append (frame_setDirty _ true)⟩⟩

/-! ### The collision flag -/

theorem boolByte_eq_zero_or_one (c : Bool) : boolByte c = 0x00#8 ∨ boolByte c = 0x01#8 := by
  cases c with
  | false => exact .inl rfl
  | true => exact .inr rfl

theorem boolByte_eq_one_iff (c : Bool) : boolByte c = 0x01#8 ↔ c = true := by
  cases c with
  | false => decide
  | true => decide

/-- On the grid, the bytes the raster reads cover the pixels of the sprite: both say which pixels the draw turns over. -/
theorem rowsCover_bytesAt (s : State) (x y : RegIdx) (n : Count) {px py : Nat} (hx : px < 64) (hy : py < 32) :
    rowsCover (originX (s.getV x)) (s.mem.bytesAt s.i.toNat n.toNat) (originY (s.getV y)) px py =
      spriteCovers s x y n px py := by
  have h := spriteRaster_isOn s x y n px py
  rw [spriteRaster, drawRows_isOn] at h
  simpa [hx, hy] using h

/-- The collision of Dxyn: a set sprite bit in the grid met an on pixel (44_display.md R248). -/
theorem spriteRaster_hit (s : State) (x y : RegIdx) (n : Count) :
    (spriteRaster s x y n).hit = true ↔
      ∃ px py, px < 64 ∧ py < 32 ∧ spriteCovers s x y n px py = true ∧ s.pix.isOn px py = true := by
  have hit := drawRows_hit (originX (s.getV x)) (s.mem.bytesAt s.i.toNat n.toNat) (originY (s.getV y))
    { screen := s.pix, hit := false }
  rw [spriteRaster, hit]
  constructor
  · rintro (h | ⟨px, py, hcover, hon⟩)
    · cases h
    · obtain ⟨hx, hy⟩ : px < 64 ∧ py < 32 := by
        by_contra hout
        rw [Screen.isOn_outside _ hout] at hon
        cases hon
      exact ⟨px, py, hx, hy, rowsCover_bytesAt s x y n hx hy ▸ hcover, hon⟩
  · rintro ⟨px, py, hx, hy, hcover, hon⟩
    exact .inr ⟨px, py, (rowsCover_bytesAt s x y n hx hy).trans hcover, hon⟩

/-! ### Dxyn -/

/-- The state a completed Dxyn leaves (44_display.md R241, R248, R249). -/
def State.drawn (s : State) (x y : RegIdx) (n : Count) : State :=
  ((s.setPix (spriteRaster s x y n).screen).setV VF (boolByte (spriteRaster s x y n).hit)).setDirty true

section Draw
variable {s : State} {x y : RegIdx} {n : Count}

theorem exec_drw_draws (hfit : n.toNat = 0 ∨ s.i.toNat + (n.toNat - 1) ≤ 0xFFF) :
    exec (.drw x y n) s = .next (s.drawn x y n) := by
  have hok : s.mem.readRange s.i.toNat n.toNat = .ok _ := s.mem.readRange_ok fun k hk => by omega
  rw [exec, execDrw, State.effAddr, Nat.add_zero, hok]
  rfl

theorem exec_drw_faults (hn : 0 < n.toNat) (hoob : 0xFFF < s.i.toNat + (n.toNat - 1)) :
    exec (.drw x y n) s = .next (s.faultedWith .memOob (encode (.drw x y n))
      (if 0xFFF < s.i.toNat then s.i else 0x1000#16)) := by
  have herr := s.mem.readRange_error hn hoob
  rw [exec, execDrw, State.effAddr, Nat.add_zero, herr, ← infoOfAddr_firstOob, ← State.raise_eq_faultedWith]

/-- On the grid, the draw turns over the pixels its sprite covers (44_display.md R245 to R247). -/
theorem State.drawn_isOn {px py : Nat} (hx : px < 64) (hy : py < 32) :
    (s.drawn x y n).pix.isOn px py = (s.pix.isOn px py ^^ spriteCovers s x y n px py) := by
  have h := spriteRaster_isOn s x y n px py
  rwa [decide_eq_true hx, decide_eq_true hy, Bool.true_and, Bool.true_and] at h

theorem State.drawn_getV_flag : (s.drawn x y n).getV VF = boolByte (spriteRaster s x y n).hit :=
  State.getV_setV_same ..

theorem State.drawn_getV_other {r : RegIdx} (hr : r ≠ VF) : (s.drawn x y n).getV r = s.getV r :=
  State.getV_setV_other _ hr _

theorem State.drawn_frame : Frame [.v, .pix, .dirty] s (s.drawn x y n) :=
  (((frame_setPix s _).append (frame_setV _ VF _)).append (frame_setDirty _ true)).mono (by decide)

end Draw

/-- Settles O48: a completed draw leaves the drawn state, whose flag is the collision; otherwise the read of the
sprite faults. -/
theorem drawTogglesSpriteAndFlagsCollision : Obligations.DrawTogglesSpriteAndFlagsCollision := by
  unfold Obligations.DrawTogglesSpriteAndFlagsCollision
  refine fun s x y n => ⟨decode_encode (.drw x y n), fun hfit => ?draws, exec_drw_faults⟩
  case draws =>
    refine ⟨_, exec_drw_draws hfit, fun px py => State.drawn_isOn, ?flag, ?collision, rfl,
      fun r => State.drawn_getV_other, State.drawn_frame⟩
    case flag => exact State.drawn_getV_flag ▸ boolByte_eq_zero_or_one _
    case collision => rw [State.drawn_getV_flag, boolByte_eq_one_iff, spriteRaster_hit]

end Sys2Proof.Machine

/-! PROOFS. The keypad and the timers (45_timers_keys.md): the key skips with both their outcomes, the key wait with both its outcomes, and the cycle of an instruction that completes. -/

namespace Sys2Proof.Machine

/-! ### The cycle of an instruction that completes -/

/-- A fetched instruction that raises no fault is a completed cycle: the timers tick on what it left (40_cycle.md R107,
R118). -/
theorem step_completes {s u : State} {i : Instr} (hs : s.fetches) (hd : decode s.wordAtPc = .instr i)
    (hexec : exec i s.advanced = .next u) (hfault : u.fault = s.fault) : step s = .next u.ticked := by
  have hrun : u.halted = false := u.not_halted_iff.2 (hfault ▸ s.not_halted_iff.1 hs.1)
  rw [step_fetches hs, execWord_instr hd, hexec, endOutcome, State.endCycle_running hrun]

/-! ### Fx0A -/

theorem exec_ldVxK_pressed {s : State} {k : Nat} (h : s.firstPressed = some k) (x : RegIdx) :
    exec (.ldVxK x) s = .next (s.setV x (BitVec.ofNat 8 k)) := by
  rw [exec, execLdVxK, h]

theorem exec_ldVxK_stalls {s : State} (h : s.firstPressed = none) (x : RegIdx) :
    exec (.ldVxK x) s = .next (s.stepBack.setAwait true) := by
  rw [exec, execLdVxK, h]

/-- The step back undoes the advance of the cycle, so a stalled key wait writes AWAIT alone (10_state.md R26). -/
theorem State.stall_advanced (s : State) : s.advanced.stepBack.setAwait true = s.setAwait true := by
  have hpc : s.pc + 2#16 - 2#16 = s.pc := BitVec.add_sub_cancel s.pc 2#16
  rw [State.stepBack, State.advanced_pc, hpc]
  rfl

/-- Settles O51: a pressed key is one write of V[x]; without one, the step back and the advance cancel, which leaves
AWAIT and the tick. -/
theorem keyWait : Obligations.KeyWait := by
  unfold Obligations.KeyWait
  refine fun s x => ⟨decode_encode (.ldVxK x), fun k hk hon hoff => ?pressed,
    fun hkeys => ⟨?stalls, fun hs hd => ?stalledCycle⟩⟩
  case pressed =>
    refine ⟨_, exec_ldVxK_pressed ((s.firstPressed_some k).2 ⟨hk, hon, hoff⟩) x, ?index, setV_keeps_rest s _⟩
    case index => rw [State.getV_setV_same, BitVec.toNat_ofNat, Nat.mod_eq_of_lt (by omega)]
  case stalls =>
    exact ⟨_, exec_ldVxK_stalls (s.firstPressed_none.2 hkeys) x, rfl, rfl,
      (frame_setPc s _).append (frame_setAwait _ true)⟩
  case stalledCycle =>
    have hexec : exec (.ldVxK x) s.advanced = .next (s.setAwait true) := by
      rw [exec_ldVxK_stalls (s.advanced.firstPressed_none.2 hkeys), State.stall_advanced]
    exact ⟨_, step_completes hs hd hexec rfl, rfl, State.ticked_dt_toNat _, State.ticked_st_toNat _,
      (frame_setAwait s true).append (frame_ticked _)⟩

/-! ### Ex9E and ExA1 -/

section SkipOnKey
variable (i : Instr) (want : Bool) {x : RegIdx} {s : State}

theorem skipOnKey_skips (h : (s.getV x).toNat < 16) :
    ∃ t, skipOnKey i want x s = .next t ∧
      t.pc = (if s.key[(s.getV x).toNat] = want then s.pc + 2#16 else s.pc) ∧ Frame [.pc] s t := by
  refine ⟨_, ?_, s.skipIf_pc (s.key[(s.getV x).toNat] = want), frame_skipIf s _⟩
  rw [skipOnKey, s.keyAt_some h]
  rfl

theorem skipOnKey_faults (h : 15 < (s.getV x).toNat) :
    skipOnKey i want x s = .next (s.faultedWith .keyRange (encode i) ((s.getV x).setWidth 16)) := by
  rw [skipOnKey, s.keyAt_none h, ← State.raise_eq_faultedWith]

end SkipOnKey

/-- Settles O50: both are key skips, the second on the key being off. -/
theorem keySkips : Obligations.KeySkips := by
  unfold Obligations.KeySkips
  refine fun s x => ⟨decode_encode (.skp x), decode_encode (.sknp x),
    fun h => ⟨skipOnKey_skips (.skp x) true h, ?skipsWhenOff⟩,
    fun h => ⟨_, BitVec.toNat_setWidth_of_le (by decide), skipOnKey_faults (.skp x) true h,
      skipOnKey_faults (.sknp x) false h⟩⟩
  case skipsWhenOff =>
    have hskip := skipOnKey_skips (.sknp x) false h
    simp only [← Bool.not_eq_true, ite_not] at hskip
    exact hskip

/-! ### Fx07, Fx15 and Fx18 -/

/-- Settles O52: the write of V[x] comes before the tick, which does not touch V. -/
theorem delayTimerRead : Obligations.DelayTimerRead := by
  unfold Obligations.DelayTimerRead
  exact fun s x => ⟨decode_encode (.ldVxDT x), ⟨_, rfl, s.getV_setV_same x _, setV_keeps_rest s _⟩,
    fun hs hd => ⟨_, step_completes hs hd rfl rfl, s.advanced.getV_setV_same x _, State.ticked_dt_toNat _⟩⟩

/-- Settles O53: each is one write of a timer, which the tick then lowers; SOUND is read after it. -/
theorem timerWrites : Obligations.TimerWrites := by
  unfold Obligations.TimerWrites
  refine fun s x => ⟨decode_encode (.ldDTVx x), decode_encode (.ldSTVx x), ⟨_, rfl, rfl, frame_setDT s _⟩,
    ⟨_, rfl, rfl, frame_setST s _⟩, fun hs hd => ⟨_, step_completes hs hd rfl rfl, State.ticked_dt_toNat _⟩,
    fun hs hd => ?soundTimer⟩
  case soundTimer =>
    have hst : (s.advanced.setST (s.getV x)).ticked.st.toNat = (s.getV x).toNat - 1 := State.ticked_st_toNat _
    refine ⟨_, step_completes hs hd rfl rfl, hst, (hostObserve_sound _).trans ?_⟩
    exact hst ▸ Nat.sub_ne_zero_iff_lt

end Sys2Proof.Machine

/-! PROOFS. The fault causes (60_exceptions.md R301): the table of the faults as a relation, that the execute step and the cycle record exactly what it holds, and the condition of each cause read off it. -/

namespace Sys2Proof.Machine

/-! ### The table of the faults -/

/-- FINFO of an access from w on: the first of its addresses above 0xFFF, w itself or 0x1000 (60_exceptions.md R303). -/
def oobInfo (w : Word) : Word := if 0xFFF < w.toNat then w else 0x1000#16

/-- The faults of the execute step of a decoded word on s: the cause and its FINFO (60_exceptions.md R301). -/
inductive Faults (s : State) : Decoded → Cause → Word → Prop
  | ret (h : s.sp.val = 0) : Faults s (.instr .ret) .stackUnderflow 0#16
  | call {nnn : Addr12} (h : s.sp.val = 16) : Faults s (.instr (.call nnn)) .stackOverflow 16#16
  | skp {x : RegIdx} (h : 15 < (s.getV x).toNat) : Faults s (.instr (.skp x)) .keyRange ((s.getV x).setWidth 16)
  | sknp {x : RegIdx} (h : 15 < (s.getV x).toNat) : Faults s (.instr (.sknp x)) .keyRange ((s.getV x).setWidth 16)
  | drw {x y : RegIdx} {k : Count} (hk : 0 < k.toNat) (h : 0xFFF < s.i.toNat + (k.toNat - 1)) :
      Faults s (.instr (.drw x y k)) .memOob (oobInfo s.i)
  | ldBVx {x : RegIdx} (h : 0xFFF < s.i.toNat + 2) : Faults s (.instr (.ldBVx x)) .memOob (oobInfo s.i)
  | storeV {x : RegIdx} (h : 0xFFF < s.i.toNat + x.toNat) : Faults s (.instr (.storeV x)) .memOob (oobInfo s.i)
  | loadV {x : RegIdx} (h : 0xFFF < s.i.toNat + x.toNat) : Faults s (.instr (.loadV x)) .memOob (oobInfo s.i)

/-- The faults of a cycle on a running s: that of the fetch, or one of the fetched word (60_exceptions.md R301). -/
inductive CycleFaults (s : State) : Cause → Word → Prop
  | fetch (h : 0xFFF < s.pc.toNat + 1) : CycleFaults s .fetchOob (oobInfo s.pc)
  | execute {c : Cause} {info : Word} (hs : s.fetches) (h : Faults s.advanced (decode s.wordAtPc) c info) :
      CycleFaults s c info

section Conditions
variable {s : State} {d : Decoded} {c c' : Cause} {info info' : Word}

theorem oobInfo_toNat (w : Word) : (oobInfo w).toNat = if 0xFFF < w.toNat then w.toNat else 0x1000 :=
  apply_ite BitVec.toNat ..

/-! ### The condition of each cause -/

theorem Faults.cause_ne (h : Faults s d c info) : c ≠ .none ∧ c ≠ .fetchOob := by
  cases h <;> decide

theorem faults_memOob_iff : Faults s d .memOob info ↔
    (∃ n : Nat, 0 < n ∧ 0xFFF < s.i.toNat + (n - 1) ∧
      ((∃ x y k, d = .instr (.drw x y k) ∧ n = k.toNat) ∨ (∃ x, d = .instr (.ldBVx x) ∧ n = 3) ∨
       (∃ x, d = .instr (.storeV x) ∧ n = x.toNat + 1) ∨ (∃ x, d = .instr (.loadV x) ∧ n = x.toNat + 1))) ∧
    info = oobInfo s.i := by
  constructor
  · intro h
    cases h with
    | drw hk h => exact ⟨⟨_, hk, h, .inl ⟨_, _, _, rfl, rfl⟩⟩, rfl⟩
    | ldBVx h => exact ⟨⟨3, by decide, h, .inr (.inl ⟨_, rfl, rfl⟩)⟩, rfl⟩
    | storeV h => exact ⟨⟨_, Nat.succ_pos _, h, .inr (.inr (.inl ⟨_, rfl, rfl⟩))⟩, rfl⟩
    | loadV h => exact ⟨⟨_, Nat.succ_pos _, h, .inr (.inr (.inr ⟨_, rfl, rfl⟩))⟩, rfl⟩
  · rintro ⟨⟨n, hn, h, ⟨x, y, k, rfl, rfl⟩ | ⟨x, rfl, rfl⟩ | ⟨x, rfl, rfl⟩ | ⟨x, rfl, rfl⟩⟩, rfl⟩
    · exact .drw hn h
    · exact .ldBVx h
    · exact .storeV h
    · exact .loadV h

theorem faults_stackOverflow_iff : Faults s d .stackOverflow info ↔
    ((∃ nnn, d = .instr (.call nnn)) ∧ s.sp.val = 16) ∧ info = 16#16 := by
  constructor
  · intro h
    cases h with
    | call h => exact ⟨⟨⟨_, rfl⟩, h⟩, rfl⟩
  · rintro ⟨⟨⟨nnn, rfl⟩, h⟩, rfl⟩
    exact .call h

theorem faults_stackUnderflow_iff : Faults s d .stackUnderflow info ↔
    (d = .instr .ret ∧ s.sp.val = 0) ∧ info = 0#16 := by
  constructor
  · intro h
    cases h with
    | ret h => exact ⟨⟨rfl, h⟩, rfl⟩
  · rintro ⟨⟨rfl, h⟩, rfl⟩
    exact .ret h

theorem faults_keyRange_iff : Faults s d .keyRange info ↔
    ∃ x, ((d = .instr (.skp x) ∨ d = .instr (.sknp x)) ∧ 15 < (s.getV x).toNat) ∧ info = (s.getV x).setWidth 16 := by
  constructor
  · intro h
    cases h with
    | skp h => exact ⟨_, ⟨.inl rfl, h⟩, rfl⟩
    | sknp h => exact ⟨_, ⟨.inr rfl, h⟩, rfl⟩
  · rintro ⟨x, ⟨rfl | rfl, h⟩, rfl⟩
    · exact .skp h
    · exact .sknp h

/-- A word has at most one fault on a state. -/
theorem Faults.cause_unique (h : Faults s d c info) (h' : Faults s d c' info') : c = c' := by
  cases h with
  | ret | call | skp | sknp | drw | ldBVx | storeV | loadV =>
    cases h'
    rfl

theorem CycleFaults.cause_unique (h : CycleFaults s c info) (h' : CycleFaults s c' info') : c = c' := by
  cases h with
  | fetch h =>
    cases h' with
    | fetch => rfl
    | execute hs => exact absurd hs.2 (Nat.not_le_of_lt h)
  | execute hs h =>
    cases h' with
    | fetch h' => exact absurd hs.2 (Nat.not_le_of_lt h')
    | execute _ h' => exact h.cause_unique h'

/-- KEY_RANGE records the register its own instruction tests. -/
theorem Faults.keyRange_info {x : RegIdx} (h : Faults s d .keyRange info)
    (hd : d = .instr (.skp x) ∨ d = .instr (.sknp x)) : info = (s.getV x).setWidth 16 := by
  obtain rfl | rfl := hd
  · cases h
    rfl
  · cases h
    rfl

theorem CycleFaults.cause_ne (h : CycleFaults s c info) : c ≠ .none := by
  cases h with
  | fetch => decide
  | execute _ h => exact h.cause_ne.1

theorem cycleFaults_fetchOob_iff : CycleFaults s .fetchOob info ↔ 0xFFF < s.pc.toNat + 1 ∧ info = oobInfo s.pc := by
  constructor
  · intro h
    cases h with
    | fetch h => exact ⟨h, rfl⟩
    | execute _ h => exact absurd rfl h.cause_ne.2
  · rintro ⟨h, rfl⟩
    exact .fetch h

theorem cycleFaults_iff_faults (hc : c ≠ .fetchOob) :
    CycleFaults s c info ↔ s.fetches ∧ Faults s.advanced (decode s.wordAtPc) c info := by
  constructor
  · intro h
    cases h with
    | fetch => exact absurd rfl hc
    | execute hs h => exact ⟨hs, h⟩
  · exact fun ⟨hs, h⟩ => .execute hs h

/-- A row of the execute step's table holds of the cycle where the cycle fetches. -/
theorem cycleFaults_row {P : Prop} {v : Word} (hc : c ≠ .fetchOob)
    (hrow : ∀ info, Faults s.advanced (decode s.wordAtPc) c info ↔ P ∧ info = v) (info : Word) :
    CycleFaults s c info ↔ (s.fetches ∧ P) ∧ info = v := by
  rw [cycleFaults_iff_faults hc, hrow, and_assoc]

/-! ### The execute step records exactly the faults of the table -/

/-- A store of n + 1 bytes whose last address exists, whatever the form of memory. -/
theorem storeAtI_fits (i : Instr) {bs : List Byte} {n : Nat} (hlen : bs.length = n + 1)
    (hfit : s.i.toNat + n ≤ 0xFFF) : storeAtI i bs s = .next (s.setMem (s.mem.putBytes s.i.toNat bs)) := by
  have hok := s.mem.writeRange_ok (a := s.i.toNat) (bs := bs) fun k hk => by omega
  rw [storeAtI, State.effAddr, Nat.add_zero, hok]

theorem Faults.exec_raises {i : Instr} (h : Faults s (.instr i) c info) : exec i s = .next (s.raise c i info) := by
  cases h with
  | ret h => exact exec_ret_empty s h
  | call h => exact exec_call_full _ s h
  | skp h | sknp h => exact skipOnKey_faults _ _ h
  | drw hk h => exact exec_drw_faults hk h
  | ldBVx h => exact storeAtI_faults _ (bcdDigits_length _) h
  | storeV h => exact storeAtI_faults _ (s.regRange_length _) h
  | loadV h => exact exec_loadV_faults h

theorem exec_keeps_fault {i : Instr} (h : ∀ c info, ¬Faults s (.instr i) c info) :
    ∃ t, exec i s = .next t ∧ t.fault = s.fault := by
  cases i with
  | ret =>
    have hsp : s.sp.val ≠ 0 := fun e => h _ _ (.ret e)
    exact ⟨_, exec_ret_pop s (by omega), rfl⟩
  | call nnn =>
    have hsp : s.sp.val ≠ 16 := fun e => h _ _ (.call e)
    exact ⟨_, exec_call_push nnn s (by omega), rfl⟩
  | skp x =>
    obtain ⟨t, hexec, -, hframe⟩ := skipOnKey_skips (.skp x) true (Nat.lt_of_not_le fun e => h _ _ (.skp e))
    exact ⟨t, hexec, hframe .fault (by decide)⟩
  | sknp x =>
    obtain ⟨t, hexec, -, hframe⟩ := skipOnKey_skips (.sknp x) false (Nat.lt_of_not_le fun e => h _ _ (.sknp e))
    exact ⟨t, hexec, hframe .fault (by decide)⟩
  | drw x y k =>
    have hfit : k.toNat = 0 ∨ s.i.toNat + (k.toNat - 1) ≤ 0xFFF :=
      k.toNat.eq_zero_or_pos.imp_right fun hk => Nat.le_of_not_lt fun e => h _ _ (.drw hk e)
    exact ⟨_, exec_drw_draws hfit, rfl⟩
  | ldBVx x =>
    exact ⟨_, storeAtI_fits _ (bcdDigits_length _) (Nat.le_of_not_lt fun e => h _ _ (.ldBVx e)), rfl⟩
  | storeV x =>
    exact ⟨_, storeAtI_fits _ (s.regRange_length x) (Nat.le_of_not_lt fun e => h _ _ (.storeV e)), rfl⟩
  | loadV x => exact ⟨_, exec_loadV_loads (Nat.le_of_not_lt fun e => h _ _ (.loadV e)), rfl⟩
  | ldVxK x =>
    obtain ⟨k, -, hexec⟩ | ⟨-, hexec⟩ := execLdVxK_cases x s
    · exact ⟨_, hexec, rfl⟩
    · exact ⟨_, hexec, rfl⟩
  | seImm x y | sneImm x y | seReg x y | sneReg x y => exact ⟨_, rfl, frame_skipIf s _ .fault (by decide)⟩
  | _ => exact ⟨_, rfl, rfl⟩

/-- FAULT after the execute step of a word: a fault of the table where there is one, else unchanged. -/
theorem execWord_fault (w : Word) (s : State) : ∃ u, execWord w s = .next u ∧
    (Faults s (decode w) u.fault.cause u.fault.finfo ∨
     (∀ c info, ¬Faults s (decode w) c info) ∧ u.fault = s.fault) := by
  cases hd : decode w with
  | unmapped v => exact ⟨s, execWord_unmapped hd s, .inr ⟨fun _ _ h => (nomatch h), rfl⟩⟩
  | instr i =>
    rw [execWord_instr hd]
    by_cases h : ∃ c info, Faults s (.instr i) c info
    · obtain ⟨c, info, h⟩ := h
      exact ⟨_, h.exec_raises, .inl h⟩
    · have hno : ∀ c info, ¬Faults s (.instr i) c info := fun c info hf => h ⟨c, info, hf⟩
      obtain ⟨u, hexec, hkept⟩ := exec_keeps_fault hno
      exact ⟨u, hexec, .inr ⟨hno, hkept⟩⟩

end Conditions

/-! ### The cycle records exactly the faults of the table -/

section Cycle
variable {s t : State} (hs : s.fault.cause = .none) (h : step s = .next t)
include hs h

/-- FAULT after a cycle of a running core: a fault of the table where there is one, else unchanged. -/
theorem step_fault : CycleFaults s t.fault.cause t.fault.finfo ∨
    (∀ c info, ¬CycleFaults s c info) ∧ t.fault = s.fault := by
  by_cases hpc : 0xFFF < s.pc.toNat + 1
  · rw [step_fetchOob hs hpc] at h
    cases h
    exact .inl (.fetch hpc)
  · have hfetch : s.fetches := ⟨s.not_halted_iff.2 hs, by omega⟩
    obtain ⟨u, hu, hfault⟩ := execWord_fault s.wordAtPc s.advanced
    rw [step_fetches hfetch, hu] at h
    cases h
    rw [State.endCycle_fault]
    obtain hf | ⟨hno, hkept⟩ := hfault
    · exact .inl (.execute hfetch hf)
    · refine .inr ⟨fun c info hf => ?_, hkept⟩
      cases hf with
      | fetch hoob => exact hpc hoob
      | execute _ hf => exact hno c info hf

theorem step_fault_kept (ht : t.fault.cause = .none) : t.fault = s.fault := by
  obtain hf | ⟨-, hkept⟩ := step_fault hs h
  · exact absurd ht hf.cause_ne
  · exact hkept

/-- A cause on record comes from the table, with its FINFO. -/
theorem cycleFaults_of_cause {c : Cause} (hc : c ≠ .none) (ht : t.fault.cause = c) : CycleFaults s c t.fault.finfo := by
  obtain hf | ⟨-, hkept⟩ := step_fault hs h
  · exact ht ▸ hf
  · exact absurd (ht.symm.trans (hkept ▸ hs)) hc

/-- A fault of the table is recorded. -/
theorem CycleFaults.step_cause {c : Cause} {info : Word} (hf : CycleFaults s c info) : t.fault.cause = c := by
  obtain hf' | ⟨hno, -⟩ := step_fault hs h
  · exact hf'.cause_unique hf
  · exact absurd hf (hno c info)

/-- A cause whose faults hold under one condition and with one FINFO is recorded exactly then, with that FINFO. -/
theorem step_cause_and_finfo {c : Cause} {P : Prop} {v : Word} (hc : c ≠ .none)
    (hrow : ∀ info, CycleFaults s c info ↔ P ∧ info = v) :
    (t.fault.cause = c ↔ P) ∧ (t.fault.cause = c → t.fault.finfo = v) := by
  have hfinfo (ht : t.fault.cause = c) : P ∧ t.fault.finfo = v := (hrow _).1 (cycleFaults_of_cause hs h hc ht)
  exact ⟨⟨fun ht => (hfinfo ht).1, fun hP => ((hrow v).2 ⟨hP, rfl⟩).step_cause hs h⟩, fun ht => (hfinfo ht).2⟩

theorem step_keyRange_iff : t.fault.cause = .keyRange ↔ s.fetches ∧ ∃ x,
    (decode s.wordAtPc = .instr (.skp x) ∨ decode s.wordAtPc = .instr (.sknp x)) ∧ 15 < (s.getV x).toNat := by
  constructor
  · intro ht
    obtain ⟨hfetch, hf⟩ := (cycleFaults_iff_faults (by decide)).1 (cycleFaults_of_cause hs h (by decide) ht)
    obtain ⟨x, hx, -⟩ := faults_keyRange_iff.1 hf
    exact ⟨hfetch, x, hx⟩
  · rintro ⟨hfetch, x, hx⟩
    exact (CycleFaults.execute hfetch (faults_keyRange_iff.2 ⟨x, hx, rfl⟩)).step_cause hs h

theorem step_keyRange_finfo {x : RegIdx} (ht : t.fault.cause = .keyRange)
    (hx : decode s.wordAtPc = .instr (.skp x) ∨ decode s.wordAtPc = .instr (.sknp x)) :
    t.fault.finfo.toNat = (s.getV x).toNat := by
  obtain ⟨-, hf⟩ := (cycleFaults_iff_faults (by decide)).1 (cycleFaults_of_cause hs h (by decide) ht)
  rw [hf.keyRange_info hx]
  exact BitVec.toNat_setWidth_of_le (by decide)

end Cycle

/-! ### The causes of a cycle -/

/-- Codes 6 and 7 are unused (60_exceptions.md R301). -/
theorem Cause.code_lt (c : Cause) : c.code.toNat < 6 := by
  cases c <;> decide

/-- Settles O10: a cycle of a running core records exactly a fault of the table, and each row of the table is the
condition and the FINFO of its cause. -/
theorem faultCausesAndInfo : Obligations.FaultCausesAndInfo := by
  unfold Obligations.FaultCausesAndInfo
  refine ⟨rfl, Cause.code_lt, fun font s => ⟨rfl, rfl⟩, fun s t hs h => ?_⟩
  obtain ⟨fetchOob, fetchInfo⟩ := step_cause_and_finfo hs h (by decide) fun _ => cycleFaults_fetchOob_iff
  obtain ⟨memOob, memInfo⟩ := step_cause_and_finfo hs h (by decide)
    (cycleFaults_row (by decide) fun _ => faults_memOob_iff)
  obtain ⟨overflow, overflowInfo⟩ := step_cause_and_finfo hs h (by decide)
    (cycleFaults_row (by decide) fun _ => faults_stackOverflow_iff)
  obtain ⟨underflow, underflowInfo⟩ := step_cause_and_finfo hs h (by decide)
    (cycleFaults_row (by decide) fun _ => faults_stackUnderflow_iff)
  refine ⟨step_fault_kept hs h, fetchOob, fun ht => ?fetchInfo, memOob, fun ht => ?memInfo, overflow,
    fun ht => ?overflowInfo, underflow, fun ht => ?underflowInfo, step_keyRange_iff hs h,
    fun x => step_keyRange_finfo hs h⟩
  case fetchInfo => rw [fetchInfo ht, oobInfo_toNat]
  case memInfo => rw [memInfo ht, oobInfo_toNat]; rfl
  case overflowInfo => rw [overflowInfo ht]; rfl
  case underflowInfo => rw [underflowInfo ht]; rfl

end Sys2Proof.Machine

/-! PROOFS. The Load of a ROM (70_reset_and_hazards.md R333): the refusal above the capacity, and the copy with its frame. -/

namespace Sys2Proof.Machine

/-- A byte of a stored list is read at its own place. -/
theorem Memory.byteAt_putBytes_getElem {m : Memory} {a j : Nat} {bs : List Byte} (hw : m.wf = true)
    (ha : a + bs.length ≤ 4096) (hj : j < bs.length) : (m.putBytes a bs).byteAt (a + j) = bs[j] := by
  rw [Memory.byteAt_putBytes hw ha, if_pos (by omega), Nat.add_sub_cancel_left, List.getD_eq_getElem _ _ hj]

theorem hostLoad_refuses {rom : List Byte} (s : State) (h : 3584 < rom.length) :
    hostLoad rom s = (s, some .capacity) := by
  obtain ⟨-, hl⟩ | ⟨hle, -⟩ := hostLoad_cases rom s
  · exact hl
  · exact absurd hle (Nat.not_le_of_lt h)

theorem hostLoad_copies {rom : List Byte} (s : State) (h : rom.length ≤ 3584) :
    hostLoad rom s = (s.setMem (s.mem.putBytes 0x200 rom), none) := by
  obtain ⟨hlt, -⟩ | ⟨-, hl⟩ := hostLoad_cases rom s
  · exact absurd h (Nat.not_le_of_lt hlt)
  · exact hl

/-- Settles O25: a ROM that fits is one write of memory, which changes the bytes of its own range alone. -/
theorem loadCopiesRomOrRefuses : Obligations.LoadCopiesRomOrRefuses := by
  unfold Obligations.LoadCopiesRomOrRefuses
  refine fun s rom hw => ⟨hostLoad_refuses s, fun hfit => ⟨_, hostLoad_copies s hfit, fun j hj => ?copied,
    fun a ha => ?kept, frame_setMem s _⟩⟩
  case copied => rw [State.setMem_mem, Memory.byteAt_putBytes_getElem hw (by omega) hj, List.getElem?_eq_getElem hj]
  case kept => exact Memory.byteAt_putBytes_outside rom _ _ (by omega)

end Sys2Proof.Machine

/-! PROOFS. The encoding (30_encoding.md): decode against encode, the rows of the opcode table, and the unmapped words by their fields. -/

namespace Sys2Proof

/-! ### Decode and encode -/

/-- Settles O2: the two round trips. -/
theorem decodeAndEncodeAgree : Obligations.DecodeAndEncodeAgree := by
  unfold Obligations.DecodeAndEncodeAgree
  exact ⟨decode_encode, fun _ _ => encode_of_decode⟩

/-- Settles O1: the decoder is run on each word. -/
theorem specWordsDecode : Obligations.SpecWordsDecode := by
  unfold Obligations.SpecWordsDecode
  decide

/-! ### The fields as numbers and under a mask -/

section Fields
variable (w m : Word)

theorem opField_toNat : (opField w).toNat = w.toNat / 0x1000 := by
  have hw : w.toNat < 65536 := w.isLt
  rw [opField, BitVec.extractLsb'_toNat, Nat.shiftRight_eq_div_pow]
  omega

theorem nField_toNat : (nField w).toNat = w.toNat % 16 := by
  rw [nField, BitVec.extractLsb'_toNat, Nat.shiftRight_zero]

theorem kkField_toNat : (kkField w).toNat = w.toNat % 256 := by
  rw [kkField, BitVec.extractLsb'_toNat, Nat.shiftRight_zero]

theorem opField_and : opField (w &&& m) = opField w &&& opField m := BitVec.extractLsb'_and
theorem nField_and : nField (w &&& m) = nField w &&& nField m := BitVec.extractLsb'_and
theorem kkField_and : kkField (w &&& m) = kkField w &&& kkField m := BitVec.extractLsb'_and

end Fields

/-! ### The unmapped words, arm by arm of the decoder -/

section Unmapped
variable (w : Word)

theorem decode0_unmapped_iff : decode0 w = .unmapped w ↔ w ≠ 0x00E0#16 ∧ w ≠ 0x00EE#16 := by
  unfold decode0
  split
  · simp_all
  · split <;> simp_all

theorem decode8_unmapped_iff : decode8 w = .unmapped w ↔ 7 < (nField w).toNat ∧ (nField w).toNat ≠ 0xE := by
  have hn : (nField w).toNat < 16 := (nField w).isLt
  unfold decode8
  split
  case h_10 =>
    simp only [imp_false] at *
    simp only [true_iff]
    omega
  all_goals simp_all

theorem decodeE_unmapped_iff : decodeE w = .unmapped w ↔ (kkField w).toNat ∉ [0x9E, 0xA1] := by
  unfold decodeE
  split <;> simp_all

theorem decodeF_unmapped_iff : decodeF w = .unmapped w ↔
    (kkField w).toNat ∉ [0x07, 0x0A, 0x15, 0x18, 0x1E, 0x29, 0x33, 0x55, 0x65] := by
  unfold decodeF
  split <;> simp_all

/-- The unmapped words by their fields, op by op (30_encoding.md R78). -/
theorem decode_unmapped_iff : decode w = .unmapped w ↔
    ((opField w).toNat = 0x0 ∧ w ≠ 0x00E0#16 ∧ w ≠ 0x00EE#16) ∨
    ((opField w).toNat = 0x5 ∧ nField w ≠ 0#4) ∨
    ((opField w).toNat = 0x8 ∧ 7 < (nField w).toNat ∧ (nField w).toNat ≠ 0xE) ∨
    ((opField w).toNat = 0x9 ∧ nField w ≠ 0#4) ∨
    ((opField w).toNat = 0xE ∧ (kkField w).toNat ∉ [0x9E, 0xA1]) ∨
    ((opField w).toNat = 0xF ∧ (kkField w).toNat ∉ [0x07, 0x0A, 0x15, 0x18, 0x1E, 0x29, 0x33, 0x55, 0x65]) := by
  unfold decode
  split
  case h_1 hop => simp [hop, decode0_unmapped_iff]
  case h_6 hop | h_10 hop => by_cases hn : nField w = 0#4 <;> simp [hop, hn]
  case h_9 hop => simp [hop, decode8_unmapped_iff]
  case h_15 hop => simp [hop, decodeE_unmapped_iff]
  case h_16 hop => simp [hop, decodeF_unmapped_iff]
  case h_17 =>
    have hop : (opField w).toNat < 16 := (opField w).isLt
    interval_cases (opField w).toNat <;> contradiction
  all_goals simp [*]

/-- The rejection names the word itself. -/
theorem eq_of_decode_unmapped {w u : Word} (h : decode w = .unmapped u) : u = w := by
  unfold decode decode0 decode8 decodeE decodeF at h
  repeat' split at h
  all_goals cases h
  all_goals rfl

end Unmapped

/-- Settles O4: the ranges are the unmapped words by their fields, read as numbers. -/
theorem unmappedSpace : Obligations.UnmappedSpace := by
  unfold Obligations.UnmappedSpace
  intro w
  have hop0 : w.toNat / 0x1000 = 0 ↔ w.toNat < 0x1000 := by omega
  rw [decode_unmapped_iff]
  simp only [ne_eq, ← BitVec.toNat_inj, opField_toNat, nField_toNat, kkField_toNat, hop0]
  simp

/-! ### The rows of the opcode table -/

section Rows
open Laws.EncodeInRow

/-- Every instruction's word matches the row of its constructor. -/
theorem row_accepts_encode : ∀ i : Instr, i.row ∈ opcodeRows ∧ i.row.accepts (encode i) = true
  | .cls => cls | .ret => ret | .jp nnn => jp nnn | .call nnn => call nnn
  | .seImm x kk => seImm x kk | .sneImm x kk => sneImm x kk | .seReg x y => seReg x y | .sneReg x y => sneReg x y
  | .ldImm x kk => ldImm x kk | .addImm x kk => addImm x kk | .ldReg x y => ldReg x y
  | .orReg x y => orReg x y | .andReg x y => andReg x y | .xorReg x y => xorReg x y | .addReg x y => addReg x y
  | .subReg x y => subReg x y | .shr x y => shr x y | .subnReg x y => subnReg x y | .shl x y => shl x y
  | .ldI nnn => ldI nnn | .jpV0 nnn => jpV0 nnn | .rnd x kk => rnd x kk | .drw x y n => drw x y n
  | .skp x => skp x | .sknp x => sknp x | .ldVxDT x => ldVxDT x | .ldVxK x => ldVxK x | .ldDTVx x => ldDTVx x
  | .ldSTVx x => ldSTVx x | .addIVx x => addIVx x | .ldFVx x => ldFVx x | .ldBVx x => ldBVx x
  | .storeV x => storeV x | .loadV x => loadV x

variable {r r₁ r₂ : PatternRow} {w : Word}

/-- The two patterns differ in a digit that both fix. -/
abbrev PatternRow.Apart (r₁ r₂ : PatternRow) : Prop := r₁.value &&& r₂.mask ≠ r₂.value &&& r₁.mask

theorem not_apart_of_accepts (h₁ : r₁.accepts w = true) (h₂ : r₂.accepts w = true) : ¬r₁.Apart r₂ := by
  rw [not_not]
  have e₁ : w &&& r₁.mask = r₁.value := beq_iff_eq.1 h₁
  have e₂ : w &&& r₂.mask = r₂.value := beq_iff_eq.1 h₂
  rw [← e₁, ← e₂, BitVec.and_assoc, BitVec.and_assoc, BitVec.and_comm r₁.mask]

theorem opcodeRows_pairwise_apart : opcodeRows.Pairwise PatternRow.Apart := by
  decide

theorem row_unique (m₁ : r₁ ∈ opcodeRows) (m₂ : r₂ ∈ opcodeRows) (h₁ : r₁.accepts w = true)
    (h₂ : r₂.accepts w = true) : r₁ = r₂ := by
  have : Std.Symm PatternRow.Apart := ⟨fun _ _ h => h.symm⟩
  by_contra hne
  exact not_apart_of_accepts h₁ h₂ (opcodeRows_pairwise_apart.forall m₁ m₂ hne)

/-- Every row of the table fixes the op digit, and where the op has unmapped words it fixes the low digits to those of
an instruction (30_encoding.md R76, R78). -/
theorem opcodeRows_fix : ∀ r ∈ opcodeRows, opField r.mask = 0xF#4 ∧
    (opField r.value = 0x0#4 → r.mask = 0xFFFF#16 ∧ (r.value = 0x00E0#16 ∨ r.value = 0x00EE#16)) ∧
    (opField r.value = 0x5#4 ∨ opField r.value = 0x9#4 → nField r.mask = 0xF#4 ∧ nField r.value = 0#4) ∧
    (opField r.value = 0x8#4 → nField r.mask = 0xF#4 ∧
      ¬(7 < (nField r.value).toNat ∧ (nField r.value).toNat ≠ 0xE)) ∧
    (opField r.value = 0xE#4 → kkField r.mask = 0xFF#8 ∧ (kkField r.value).toNat ∈ [0x9E, 0xA1]) ∧
    (opField r.value = 0xF#4 → kkField r.mask = 0xFF#8 ∧ (kkField r.value).toNat ∈
      [0x07, 0x0A, 0x15, 0x18, 0x1E, 0x29, 0x33, 0x55, 0x65]) := by
  decide

theorem PatternRow.accepts_op (h : r.accepts w = true) (hm : opField r.mask = 0xF#4) : opField r.value = opField w := by
  rw [← beq_iff_eq.1 h, opField_and, hm, and_ones4]

theorem PatternRow.accepts_n (h : r.accepts w = true) (hm : nField r.mask = 0xF#4) : nField r.value = nField w := by
  rw [← beq_iff_eq.1 h, nField_and, hm, and_ones4]

theorem PatternRow.accepts_kk (h : r.accepts w = true) (hm : kkField r.mask = 0xFF#8) :
    kkField r.value = kkField w := by
  rw [← beq_iff_eq.1 h, kkField_and, hm, and_ones8]

theorem PatternRow.accepts_word (h : r.accepts w = true) (hm : r.mask = 0xFFFF#16) : r.value = w := by
  rw [← beq_iff_eq.1 h, hm]
  exact BitVec.and_allOnes

/-- A word that matches a row of the table has the digits of an instruction (30_encoding.md R77). -/
theorem decode_ne_unmapped_of_accepts (hr : r ∈ opcodeRows) (h : r.accepts w = true) : decode w ≠ .unmapped w := by
  obtain ⟨hop, h0, h59, h8, hE, hF⟩ := opcodeRows_fix r hr
  rw [PatternRow.accepts_op h hop] at h0 h59 h8 hE hF
  intro hu
  have op_eq {op : BitVec 4} (e : (opField w).toNat = op.toNat) : opField w = op := BitVec.eq_of_toNat_eq e
  obtain ⟨e, ne⟩ | ⟨e, hn⟩ | ⟨e, hn⟩ | ⟨e, hn⟩ | ⟨e, hk⟩ | ⟨e, hk⟩ := (decode_unmapped_iff w).1 hu
  · obtain ⟨hm, hv⟩ := h0 (op_eq e)
    rw [PatternRow.accepts_word h hm] at hv
    exact hv.elim ne.1 ne.2
  · obtain ⟨hm, hv⟩ := h59 (.inl (op_eq e))
    exact hn (PatternRow.accepts_n h hm ▸ hv)
  · obtain ⟨hm, hv⟩ := h8 (op_eq e)
    exact hv (PatternRow.accepts_n h hm ▸ hn)
  · obtain ⟨hm, hv⟩ := h59 (.inr (op_eq e))
    exact hn (PatternRow.accepts_n h hm ▸ hv)
  · obtain ⟨hm, hv⟩ := hE (op_eq e)
    exact hk (PatternRow.accepts_kk h hm ▸ hv)
  · obtain ⟨hm, hv⟩ := hF (op_eq e)
    exact hk (PatternRow.accepts_kk h hm ▸ hv)

theorem row_accepts_of_decode {i : Instr} (h : decode w = .instr i) : i.row ∈ opcodeRows ∧ i.row.accepts w = true :=
  encode_of_decode h ▸ row_accepts_encode i

theorem decode_unmapped_iff_no_row : decode w = .unmapped w ↔ ∀ r ∈ opcodeRows, r.accepts w = false := by
  constructor
  · intro hu r hr
    by_contra h
    exact decode_ne_unmapped_of_accepts hr (Bool.eq_true_of_not_eq_false h) hu
  · intro h
    cases hd : decode w with
    | instr i =>
      obtain ⟨hr, ha⟩ := row_accepts_of_decode hd
      exact absurd ha (by simp [h _ hr])
    | unmapped u => rw [eq_of_decode_unmapped hd]

end Rows

/-- Settles O3: two patterns that match one word agree on the digits both fix, and no two rows do; the decoder's unmapped
words miss every row. -/
theorem decodeMatchesOneTableRow : Obligations.DecodeMatchesOneTableRow := by
  unfold Obligations.DecodeMatchesOneTableRow
  exact ⟨rfl, fun _ _ _ => row_unique, fun _ _ => row_accepts_of_decode, fun _ => decode_unmapped_iff_no_row⟩

end Sys2Proof

/-! PROOFS. The cycle across every instruction: that it answers a next state, which instruction changes which element, what it reads of AWAIT and of the count of draws, and a return after its call. -/

namespace Sys2Proof

/-! ### Which instruction writes a part that few write -/

theorem Instr.i_mem_writes {i : Instr} :
    .i ∈ i.writes ↔ (∃ nnn, i = .ldI nnn) ∨ (∃ x, i = .addIVx x) ∨ ∃ x, i = .ldFVx x := by
  cases i <;> simp [Instr.writes]

theorem Instr.sp_mem_writes {i : Instr} : .sp ∈ i.writes ↔ i = .ret ∨ ∃ nnn, i = .call nnn := by
  cases i <;> simp [Instr.writes]

theorem Instr.dirty_mem_writes {i : Instr} : .dirty ∈ i.writes ↔ i = .cls ∨ ∃ x y n, i = .drw x y n := by
  cases i <;> simp [Instr.writes]

theorem Instr.draws_mem_writes {i : Instr} : .draws ∈ i.writes ↔ ∃ x kk, i = .rnd x kk := by
  cases i <;> simp [Instr.writes]

end Sys2Proof

namespace Sys2Proof.Machine

/-! ### Every cycle answers -/

/-- Settles O14: each outcome of the execute step and of the cycle is a next state. -/
theorem everyCycleAnswersNext : Obligations.EveryCycleAnswersNext := by
  unfold Obligations.EveryCycleAnswersNext
  refine ⟨fun i s => ?exec, fun s => ?step⟩
  case exec =>
    obtain ⟨t, ht, -⟩ := exec_cases i s
    exact ⟨t, ht⟩
  case step =>
    obtain ⟨-, h⟩ | ⟨-, -, h⟩ | ⟨-, h⟩ := step_cases s
    · exact ⟨_, h⟩
    · exact ⟨_, h⟩
    · obtain ⟨u, hu, -⟩ := execWord_cases s.wordAtPc s
      exact ⟨u.endCycle, by rw [h, s.beginCycle_eq, hu, endOutcome]⟩

/-- Settles O5: the execute step answers, and the cycle ends as it left FAULT. -/
theorem stepRunsDecodedInstruction : Obligations.StepRunsDecodedInstruction := by
  unfold Obligations.StepRunsDecodedInstruction
  intro s i hs hpc (hd : decode s.wordAtPc = .instr i)
  obtain ⟨t, ht, -⟩ := exec_cases i s.advanced
  have hstep : step s = .next t.endCycle := by
    rw [step_fetches ⟨s.not_halted_iff.2 hs, hpc⟩, execWord_instr hd, ht, endOutcome]
  refine ⟨t, ht, fun hrun => ?completes, fun hfault => ?faults⟩
  case completes => rw [hstep, State.endCycle_running (t.not_halted_iff.2 hrun), State.ticked]
  case faults => rw [hstep, State.endCycle_faulted (t.halted_iff.2 hfault)]

/-- Settles O16: whether it fetches or not, the cycle sees the state with AWAIT cleared. -/
theorem awaitReadByNoCycle : Obligations.AwaitReadByNoCycle := by
  unfold Obligations.AwaitReadByNoCycle
  intro s b hs
  by_cases hpc : s.pc.toNat + 1 ≤ 0xFFF
  · have hfetch : s.fetches := ⟨s.not_halted_iff.2 hs, hpc⟩
    exact (step_fetches (s := { s with await := b }) hfetch).trans (step_fetches hfetch).symm
  · have hoob := Nat.lt_of_not_le hpc
    exact (step_fetchOob (s := { s with await := b }) hs hoob).trans (step_fetchOob hs hoob).symm

/-! ### What a step changes, by the instruction at PC -/

/-- The parts a cycle may change whatever its word is: those of the advance, of the fault entry and of the tick. -/
abbrev cycleParts : List Part := [.pc, .await, .fault, .dt, .st]

theorem frame_setFault (s : State) (f : FaultRecord) : Frame [.fault] s (s.setFault f) :=
  frame_singleton fun p hp => by cases p <;> simp_all [Part.same]

theorem frame_enterFault (s : State) (c : Cause) (p w f : Word) :
    Frame [.pc, .await, .fault] s (s.enterFault c p w f) :=
  ((frame_setPc s p).append (frame_setAwait _ false)).append (frame_setFault _ _)

/-- A step changes a part outside those of every cycle only where its word is an instruction that writes it
(40_cycle.md R106). -/
theorem step_same {s t : State} {p : Part} (h : step s = .next t) (hp : p ∉ cycleParts)
    (hn : ∀ i, decode s.wordAtPc = .instr i → p ∉ i.writes) : Part.same s t p := by
  obtain ⟨-, rfl⟩ | ⟨-, c, w, info, -, -, -, rfl⟩ | ⟨-, u, -, hf, rfl⟩ := step_next_cases h
  · exact Part.same_refl t p
  · exact (frame_enterFault s c _ w info).mono (by decide) p hp
  · have hadv : Part.same s s.advanced p := (frame_advanced s).mono (by decide) p hp
    have htick : Part.same u u.ticked p := (frame_ticked u).mono (by decide) p hp
    exact Part.same_trans (Part.same_trans hadv (hf.same_of_writes hn)) htick

theorem step_writes_of_changed {s t : State} {p : Part} (h : step s = .next t) (hp : p ∉ cycleParts)
    (hc : ¬Part.same s t p) : ∃ i, decode s.wordAtPc = .instr i ∧ p ∈ i.writes := by
  by_contra hn
  exact hc (step_same h hp fun i hd hm => hn ⟨i, hd, hm⟩)

theorem exec_keeps_dirty_raised {i : Instr} {s t : State} (h : exec i s = .next t) (hs : s.dirty = true) :
    t.dirty = true := by
  obtain ⟨u, hu, ⟨c, info, -, -, rfl⟩ | hf⟩ := exec_cases i s
  · cases hu.symm.trans h
    exact hs
  · cases hu.symm.trans h
    by_cases hm : .dirty ∈ i.writes
    · obtain rfl | ⟨x, y, n, rfl⟩ := Instr.dirty_mem_writes.1 hm
      · cases h
        rfl
      · obtain ⟨f, hx⟩ | hx := execDrw_cases x y n s
        · cases hx.symm.trans h
          exact hs
        · cases hx.symm.trans h
          rfl
    · exact (hf .dirty hm).trans hs

/-- DIRTY only rises in a cycle (10_state.md R32). -/
theorem step_keeps_dirty_raised {s t : State} (h : step s = .next t) (hs : s.dirty = true) : t.dirty = true := by
  obtain ⟨-, rfl⟩ | ⟨-, c, w, info, -, -, -, rfl⟩ | ⟨-, u, hu, -, rfl⟩ := step_next_cases h
  · exact hs
  · exact hs
  · cases hd : decode s.wordAtPc with
    | instr i =>
      have hexec : exec i s.advanced = .next u := (execWord_instr hd _).symm.trans hu
      exact exec_keeps_dirty_raised (t := u) hexec hs
    | unmapped w =>
      cases (execWord_unmapped hd _).symm.trans hu
      exact hs

/-- Settles O15: an element that changed is written by the instruction at PC, and few instructions write it. -/
theorem stepChangesStateOnlyByName : Obligations.StepChangesStateOnlyByName := by
  unfold Obligations.StepChangesStateOnlyByName
  intro s t h
  refine ⟨fun hi => ?index, fun ⟨a, ha⟩ => ?memory, fun hscreen => ?screen, step_keeps_dirty_raised h, fun hsp => ?sp,
    fun hstack => ?stack, step_key h⟩
  case index =>
    obtain ⟨i, hd, hw⟩ := step_writes_of_changed (p := .i) h (by decide) hi
    exact ⟨i, hd, Instr.i_mem_writes.1 hw⟩
  case memory =>
    obtain ⟨i, hd, hw⟩ := step_writes_of_changed (p := .mem) h (by decide) fun hsame => ha (hsame a)
    exact ⟨i, hd, Instr.mem_mem_writes.1 hw⟩
  case screen =>
    obtain hpix | hdirty := hscreen
    · obtain ⟨i, hd, hw⟩ := step_writes_of_changed (p := .pix) h (by decide) fun hsame => hpix (Screen.ext_isOn hsame)
      exact ⟨i, hd, Instr.pix_mem_writes.1 hw⟩
    · obtain ⟨i, hd, hw⟩ := step_writes_of_changed (p := .dirty) h (by decide) hdirty
      exact ⟨i, hd, Instr.dirty_mem_writes.1 hw⟩
  case sp =>
    obtain ⟨i, hd, hw⟩ := step_writes_of_changed (p := .sp) h (by decide) hsp
    exact ⟨i, hd, Instr.sp_mem_writes.1 hw⟩
  case stack =>
    obtain ⟨i, hd, hw⟩ := step_writes_of_changed (p := .stack) h (by decide) fun hsame => hstack (Vector.ext hsame)
    obtain ⟨nnn, rfl⟩ := Instr.stack_mem_writes.1 hw
    exact ⟨nnn, hd⟩

/-! ### The count of draws, read by Cxkk alone -/

/-- What a cycle answered, with the count of draws replaced in the next state. -/
def outcomeSetDraws (n : Nat) : Host.Outcome State Fault Refusal → Host.Outcome State Fault Refusal
  | .next t => .next (t.setDraws n)
  | .fault f => .fault f
  | .refused r => .refused r

section Draws
variable (n : Nat) (s : State)

@[simp] theorem State.setDraws_effAddr (k : Nat) : (s.setDraws n).effAddr k = s.effAddr k := rfl
@[simp] theorem State.setDraws_keyAt (b : Byte) : (s.setDraws n).keyAt b = s.keyAt b := rfl
@[simp] theorem State.setDraws_firstPressed : (s.setDraws n).firstPressed = s.firstPressed := rfl

theorem State.skipIf_setDraws (c : Bool) : (s.setDraws n).skipIf c = (s.skipIf c).setDraws n := by
  cases c with
  | false => rfl
  | true => rfl

theorem storeAtI_setDraws (i : Instr) (bs : List Byte) :
    storeAtI i bs (s.setDraws n) = outcomeSetDraws n (storeAtI i bs s) := by
  simp only [storeAtI, State.setDraws_mem, State.setDraws_effAddr]
  cases s.mem.writeRange (s.effAddr 0) bs with
  | error e => rfl
  | ok m => rfl

theorem skipOnKey_setDraws (i : Instr) (want : Bool) (x : RegIdx) :
    skipOnKey i want x (s.setDraws n) = outcomeSetDraws n (skipOnKey i want x s) := by
  simp only [skipOnKey, State.setDraws_getV, State.setDraws_keyAt, State.skipIf_setDraws]
  cases s.keyAt (s.getV x) with
  | none => rfl
  | some k => rfl

/-- The execute step of an instruction that is not Cxkk does the same whatever the count of draws. -/
theorem exec_setDraws {i : Instr} (hi : ∀ x kk, i ≠ .rnd x kk) :
    exec i (s.setDraws n) = outcomeSetDraws n (exec i s) := by
  cases i with
  | rnd x kk => exact absurd rfl (hi x kk)
  | ret =>
    by_cases h : s.sp.val = 0
    · rw [exec_ret_empty s h, exec_ret_empty (s.setDraws n) h]
      rfl
    · have hpos : 0 < s.sp.val := Nat.pos_of_ne_zero h
      rw [exec_ret_pop s hpos, exec_ret_pop (s.setDraws n) hpos]
      rfl
  | call nnn =>
    by_cases h : s.sp.val < 16
    · rw [exec_call_push nnn s h, exec_call_push nnn (s.setDraws n) h]
      rfl
    · have hfull : s.sp.val = 16 := by have := s.sp.isLt; omega
      rw [exec_call_full nnn s hfull, exec_call_full nnn (s.setDraws n) hfull]
      rfl
  | seImm x y | sneImm x y | seReg x y | sneReg x y => exact congrArg _ (s.skipIf_setDraws n _)
  | skp x | sknp x => exact skipOnKey_setDraws n s _ _ x
  | ldBVx x | storeV x => exact storeAtI_setDraws n s _ _
  | drw x y k =>
    simp only [exec, execDrw, State.setDraws_mem, State.setDraws_effAddr]
    cases s.mem.readRange (s.effAddr 0) k.toNat with
    | error e => rfl
    | ok bs => rfl
  | loadV x =>
    simp only [exec, execLoadV, State.setDraws_mem, State.setDraws_effAddr]
    cases s.mem.readRange (s.effAddr 0) (x.toNat + 1) with
    | error e => rfl
    | ok bs => rfl
  | ldVxK x =>
    simp only [exec, execLdVxK, State.setDraws_firstPressed]
    cases s.firstPressed with
    | none => rfl
    | some k => rfl
  | _ => rfl

theorem execWord_setDraws {w : Word} (hw : ∀ x kk, decode w ≠ .instr (.rnd x kk)) :
    execWord w (s.setDraws n) = outcomeSetDraws n (execWord w s) := by
  cases hd : decode w with
  | instr i =>
    rw [execWord_instr hd, execWord_instr hd]
    exact exec_setDraws n s fun x kk e => hw x kk (e ▸ hd)
  | unmapped u =>
    rw [execWord_unmapped hd, execWord_unmapped hd]
    rfl

theorem State.endCycle_setDraws : (s.setDraws n).endCycle = s.endCycle.setDraws n := by
  rw [State.endCycle, State.endCycle, State.setDraws_halted]
  split
  · rfl
  · rfl

theorem endOutcome_setDraws (o : Host.Outcome State Fault Refusal) :
    endOutcome (outcomeSetDraws n o) = outcomeSetDraws n (endOutcome o) := by
  cases o with
  | next t => exact congrArg _ (t.endCycle_setDraws n)
  | fault f => rfl
  | refused r => rfl

/-- A cycle that runs no Cxkk does the same whatever the count of draws (40_cycle.md R116). -/
theorem step_setDraws (h : ¬(s.fetches ∧ ∃ x kk, decode s.wordAtPc = .instr (.rnd x kk))) :
    step (s.setDraws n) = outcomeSetDraws n (step s) := by
  by_cases hc : s.fault.cause = .none
  · by_cases hpc : s.pc.toNat + 1 ≤ 0xFFF
    · have hfetch : s.fetches := ⟨s.not_halted_iff.2 hc, hpc⟩
      have hexec := execWord_setDraws n s.advanced (w := s.wordAtPc) fun x kk hd => h ⟨hfetch, x, kk, hd⟩
      rw [step_fetches hfetch, ← endOutcome_setDraws, ← hexec]
      exact step_fetches (s := s.setDraws n) hfetch
    · have hoob := Nat.lt_of_not_le hpc
      rw [step_fetchOob hc hoob, step_fetchOob (s := s.setDraws n) hc hoob]
      rfl
  · rw [step_halted hc, step_halted (s := s.setDraws n) hc]
    rfl

end Draws

/-- Settles O17: a cycle without Cxkk keeps the count of draws and commutes with replacing it. -/
theorem randomByteReadByRndAlone : Obligations.RandomByteReadByRndAlone := by
  unfold Obligations.RandomByteReadByRndAlone
  intro s t n hn h
  refine ⟨?kept, ?commutes⟩
  case kept =>
    obtain ⟨-, rfl⟩ | ⟨-, c, w, info, -, -, -, rfl⟩ | ⟨hfetch, u, -, hf, rfl⟩ := step_next_cases h
    · rfl
    · rfl
    · refine hf.same_of_writes (p := .draws) fun i hd hm => ?_
      obtain ⟨x, kk, rfl⟩ := Instr.draws_mem_writes.1 hm
      exact hn ⟨hfetch, x, kk, hd⟩
  case commutes =>
    have hs := step_setDraws n s hn
    rwa [h] at hs

/-! ### A call and its return -/

/-- Settles O32: the return pops the slot the call filled. -/
theorem returnUndoesCall : Obligations.ReturnUndoesCall := by
  unfold Obligations.ReturnUndoesCall
  intro s t u nnn hsp h husp hustack
  cases (exec_call_push nnn s hsp).symm.trans h
  have hval : u.sp.val = s.sp.val + 1 := congrArg Fin.val husp
  have htop : u.stack[u.sp.val - 1]? = some s.pc := by
    rw [hustack, hval]
    exact Vector.getElem?_set_self hsp
  refine ⟨_, exec_ret_pop u (by omega), ?pc, Fin.ext (by simp [hval])⟩
  case pc => exact Option.some.inj ((Vector.getElem?_eq_getElem _).symm.trans htop)

/-! ### Cxkk -/

/-- Settles O42: one write of V[x], and a write of the count of draws after it. -/
theorem randomAndMask : Obligations.RandomAndMask := by
  unfold Obligations.RandomAndMask
  exact fun s x kk => ⟨decode_encode (.rnd x kk),
    ⟨_, rfl, s.getV_setV_same x _, rfl, fun r hr => s.getV_setV_other hr _,
      (frame_setV s x _).append (frame_setDraws _ _)⟩,
    fun b => ⟨s.getV_setV_same x _, setV_keeps_rest s _⟩⟩

end Sys2Proof.Machine

/-! PROOFS. The invariant (10_state.md R37): at reset, through every step and every move of the host, and so of every reachable state. -/

namespace Sys2Proof.Machine

/-! ### At reset -/

theorem State.inv_of_not_await {s : State} (hw : s.mem.wf = true) (ha : s.await = false) : s.Inv :=
  s.consistent_iff.2 ⟨hw, fun h => by simp [ha] at h⟩

theorem State.initial_inv (font : Config.Font) : (State.initial font).Inv :=
  State.inv_of_not_await (State.initial_mem_wf font) rfl

/-- Settles O18: memory after the Initializer is canonical, and AWAIT is 0. -/
theorem invariantAtReset : Obligations.InvariantAtReset := by
  unfold Obligations.InvariantAtReset
  exact ⟨State.initial_defaultFont ▸ State.initial_inv Config.defaultFont, State.initial_inv⟩

/-! ### Through a step -/

theorem execWord_mem_wf {w : Word} {s t : State} (hw : s.mem.wf = true) (h : execWord w s = .next t) :
    t.mem.wf = true := by
  cases hd : decode w with
  | instr i => exact exec_mem_wf hw ((execWord_instr hd s).symm.trans h)
  | unmapped u =>
    cases (execWord_unmapped hd s).symm.trans h
    exact hw

theorem step_mem_wf {s t : State} (hw : s.mem.wf = true) (h : step s = .next t) : t.mem.wf = true := by
  obtain ⟨-, rfl⟩ | ⟨-, c, w, info, -, -, -, rfl⟩ | ⟨-, u, hu, -, rfl⟩ := step_next_cases h
  · exact hw
  · exact hw
  · exact execWord_mem_wf (s := s.advanced) (t := u) hw hu

/-- A cycle that leaves AWAIT raised is a stalled Fx0A, which changes AWAIT alone before the tick (40_cycle.md R110). -/
theorem step_stalled {s t : State} (hs : s.fault.cause = .none) (h : step s = .next t) (ha : t.await = true) :
    s.fetches ∧ (∃ x, decode s.wordAtPc = .instr (.ldVxK x)) ∧ t = (s.setAwait true).ticked := by
  obtain ⟨hfetch, ⟨x, hd⟩, hkeys⟩ := (awaitMarksStalledKeyWait s t hs h).1 ha
  have hexec : exec (.ldVxK x) s.advanced = .next (s.setAwait true) := by
    rw [exec_ldVxK_stalls (s.advanced.firstPressed_none.2 hkeys), State.stall_advanced]
  cases h.symm.trans (step_completes hfetch hd hexec rfl)
  exact ⟨hfetch, ⟨x, hd⟩, rfl⟩

/-- The step lemma of the invariant: AWAIT is raised by a stalled Fx0A alone, which keeps FAULT, PC and memory. -/
theorem step_inv {s t : State} (hs : s.Inv) (h : step s = .next t) : t.Inv := by
  by_cases hc : s.fault.cause = .none
  · refine t.consistent_iff.2 ⟨step_mem_wf (s.consistent_iff.1 hs).1 h, fun ha => ?_⟩
    obtain ⟨hfetch, hx, rfl⟩ := step_stalled hc h ha
    exact ⟨hc, hfetch.2, hx⟩
  · cases (step_halted hc).symm.trans h
    exact hs

/-- Settles O19: the step lemma. -/
theorem everyStepKeepsInvariant : Obligations.EveryStepKeepsInvariant := by
  unfold Obligations.EveryStepKeepsInvariant
  exact fun s t => step_inv

/-! ### Through the moves of the host -/

theorem hostInit_inv (font : Config.Font) (s : State) : (hostInit font s).Inv :=
  State.inv_of_not_await (State.initial_mem_wf font) rfl

theorem hostLoad_mem_wf {rom : List Byte} {s : State} (hw : s.mem.wf = true) : (hostLoad rom s).1.mem.wf = true := by
  obtain ⟨-, h⟩ | ⟨hfit, h⟩ := hostLoad_cases rom s
  · rw [h]
    exact hw
  · rw [h]
    exact Memory.putBytes_wf hw (by omega)

theorem hostLoad_await (rom : List Byte) (s : State) : (hostLoad rom s).1.await = s.await := by
  obtain ⟨-, h⟩ | ⟨-, h⟩ := hostLoad_cases rom s
  · rw [h]
  · rw [h]
    rfl

/-- Settles O57: the bytes loaded are put from 0x200 on, below the end of memory. -/
theorem loadKeepsCanonicalMemory : Obligations.LoadKeepsCanonicalMemory := by
  unfold Obligations.LoadKeepsCanonicalMemory
  exact fun s rom => hostLoad_mem_wf

theorem hostRestore_inv {snap s : State} (hs : s.Inv) : (hostRestore snap s).1.Inv := by
  obtain ⟨hc, h⟩ | ⟨-, h⟩ := hostRestore_cases snap s
  · rw [h]
    exact hc
  · rw [h]
    exact hs

/-- The step lemma of the invariant for a move of the host. -/
theorem hostOp_inv (font : Config.Font) {s : State} (op : HostOp) (hs : s.Inv) : (hostOp font op s).1.Inv := by
  cases op with
  | init => exact hostInit_inv font s
  | boot rom =>
    exact State.inv_of_not_await (hostLoad_mem_wf (State.initial_mem_wf font)) (hostLoad_await rom (hostInit font s))
  | setKeypad k => exact hs
  | clearDirty => exact hs
  | step =>
    cases h : step s with
    | next t =>
      rw [hostOp, h]
      exact step_inv hs h
    | fault f => cases f
    | refused r =>
      rw [hostOp, h]
      exact hs
  | restore snap => exact hostRestore_inv hs

/-- Settles O54: the invariant after the Initializer, and the step lemma of the moves. -/
theorem everyHostMoveKeepsInvariant : Obligations.EveryHostMoveKeepsInvariant := by
  unfold Obligations.EveryHostMoveKeepsInvariant
  exact fun font => ⟨State.initial_inv font, fun s => hostOp_inv font⟩

theorem Reachable.inv {font : Config.Font} {s : State} (h : Reachable font s) : s.Inv := by
  induction h with
  | initial => exact State.initial_inv font
  | move s op _ ih => exact hostOp_inv font op ih

/-- Settles O20: the invariant of a reachable state, read by its clauses. -/
theorem reachableStatesAreConsistent : Obligations.ReachableStatesAreConsistent := by
  unfold Obligations.ReachableStatesAreConsistent
  intro font s h
  obtain ⟨hw, hawait⟩ := s.consistent_iff.1 h.inv
  exact ⟨hw, Nat.le_of_lt_succ s.sp.isLt, hawait⟩

/-- Settles O56: Restore checks the canonical form with R37. -/
theorem nonCanonicalSnapshotIsRefused : Obligations.NonCanonicalSnapshotIsRefused := by
  unfold Obligations.NonCanonicalSnapshotIsRefused
  intro font u s hw
  obtain ⟨hc, -⟩ | ⟨-, h⟩ := hostRestore_cases u s
  · exact absurd (u.consistent_iff.1 hc).1 (by simp [hw])
  · exact h

end Sys2Proof.Machine

/-! PROOFS. Memory and the launch: the checked accesses, a store seen by a fetch (20_memory.md), the second draw of a sprite (44_display.md), and the move boot (70_reset_and_hazards.md). -/

namespace Sys2Proof.Machine

/-! ### The checked accesses -/

/-- Settles O21: an access of one byte is the range check on its address alone. -/
theorem memoryByteAccess : Obligations.MemoryByteAccess := by
  unfold Obligations.MemoryByteAccess
  refine fun m a b hw => ⟨fun hoob => ⟨?readOob, ?writeOob⟩, fun hin => ⟨?read, m.put a b, ?write,
    Memory.put_wf hw (Nat.lt_succ_of_le hin) b, Memory.byteAt_put hw a b⟩⟩
  case readOob => rw [m.readRange_error (by decide) hoob, if_pos hoob]
  case writeOob => rw [m.writeRange_error (by simp) hoob, if_pos hoob]
  case read => exact m.readRange_ok fun k hk => by omega
  case write => exact m.writeRange_ok fun k hk => by simp at hk; omega

/-- The first address out of range, reached after k that are in range, is the one the error names. -/
theorem firstOob_eq {a k : Nat} (hk : 0xFFF < a + k) (hmin : ∀ j < k, a + j ≤ 0xFFF) :
    (if 0xFFF < a then a else 0x1000) = a + k := by
  obtain rfl | hpos := k.eq_zero_or_pos
  · exact if_pos hk
  · have hlast := hmin (k - 1) (by omega)
    rw [if_neg (by omega)]
    omega

/-- Settles O22: both accesses make the same range check first. -/
theorem rangeCheckedBeforeAnyByte : Obligations.RangeCheckedBeforeAnyByte := by
  unfold Obligations.RangeCheckedBeforeAnyByte
  refine fun m a bs => ⟨fun hin => ⟨⟨_, m.writeRange_ok hin⟩, _, m.readRange_ok hin, m.bytesAt_length a _,
    fun k hk => ?byte⟩, fun k hk hoob hmin => ?error⟩
  case byte => simp [Memory.bytesAt, hk]
  case error =>
    have hlast : 0xFFF < a + (bs.length - 1) := by omega
    rw [m.writeRange_error (by omega) hlast, m.readRange_error (by omega) hlast, firstOob_eq hoob hmin]
    exact ⟨rfl, rfl⟩

/-! ### A store seen by a fetch -/

/-- Byte k of a completed Fx55 is V[k]. -/
theorem exec_storeV_byteAt {s t : State} {x : RegIdx} {k : Nat} (hw : s.mem.wf = true)
    (hfit : s.i.toNat + x.toNat ≤ 0xFFF) (h : exec (.storeV x) s = .next t) (hk : k ≤ x.toNat) :
    t.mem.byteAt (s.i.toNat + k) = s.getV (BitVec.ofNat 4 k) := by
  have hidx : (BitVec.ofNat 4 k).toNat = k := by
    have hx : x.toNat < 16 := x.isLt
    rw [BitVec.toNat_ofNat, Nat.mod_eq_of_lt (by omega)]
  obtain ⟨u, hexec, hstored, -⟩ := storeAtI_stores (.storeV x) hw (s.regRange_length x) hfit
  cases hexec.symm.trans h
  rw [hstored k hk, ← s.regRange_getD (hidx.trans_le hk) 0x00#8, hidx]

/-- Settles O23: the fetch reads two of the stored bytes. -/
theorem storedBytesAreFetched : Obligations.StoredBytesAreFetched := by
  unfold Obligations.StoredBytesAreFetched
  intro s t u x k hw hfit h hmem hpc hk
  have hi := exec_storeV_byteAt hw hfit h (Nat.le_of_succ_le hk)
  have hlo := exec_storeV_byteAt hw hfit h hk
  rw [u.fetch_ok (by omega), State.wordAtPc, hmem, hpc, hi, Nat.add_assoc, hlo]

/-! ### A sprite drawn twice -/

section DrawTwice
variable {s t : State} {x y : RegIdx} {n : Count}

/-- A Dxyn that left no fault has drawn, since its bytes are in memory. -/
theorem exec_drw_completed (h : exec (.drw x y n) s = .next t) (ht : t.fault.cause = .none) :
    (n.toNat = 0 ∨ s.i.toNat + (n.toNat - 1) ≤ 0xFFF) ∧ t = s.drawn x y n := by
  by_cases hfit : n.toNat = 0 ∨ s.i.toNat + (n.toNat - 1) ≤ 0xFFF
  · cases (exec_drw_draws hfit).symm.trans h
    exact ⟨hfit, rfl⟩
  · cases (exec_drw_faults (by omega) (by omega)).symm.trans h
    cases ht

/-- Where x and y are not VF, the draw leaves the place and the bytes of its sprite. -/
theorem spriteCovers_drawn (hx : x ≠ VF) (hy : y ≠ VF) (px py : Nat) :
    spriteCovers (s.drawn x y n) x y n px py = spriteCovers s x y n px py := by
  unfold spriteCovers
  rw [State.drawn_getV_other hx, State.drawn_getV_other hy]
  rfl

theorem drawn_drawn_pix (hx : x ≠ VF) (hy : y ≠ VF) : ((s.drawn x y n).drawn x y n).pix = s.pix := by
  refine Screen.ext_isOn fun px py => ?_
  by_cases hin : px < 64 ∧ py < 32
  · rw [State.drawn_isOn hin.1 hin.2, State.drawn_isOn hin.1 hin.2, spriteCovers_drawn hx hy, Bool.xor_assoc,
      Bool.xor_self, Bool.xor_false]
  · rw [Screen.isOn_outside _ hin, Screen.isOn_outside _ hin]

/-- A pixel the first draw turned on is met by the second. -/
theorem drawn_drawn_hit {px py : Nat} (hx : x ≠ VF) (hy : y ≠ VF) (hpx : px < 64) (hpy : py < 32)
    (hcover : spriteCovers s x y n px py = true) (hmiss : (spriteRaster s x y n).hit = false) :
    (spriteRaster (s.drawn x y n) x y n).hit = true := by
  have hoff : s.pix.isOn px py = false := by
    by_contra hon
    have hhit := (spriteRaster_hit s x y n).2 ⟨px, py, hpx, hpy, hcover, Bool.eq_true_of_not_eq_false hon⟩
    simp [hmiss] at hhit
  refine (spriteRaster_hit _ x y n).2 ⟨px, py, hpx, hpy, (spriteCovers_drawn hx hy px py).trans hcover, ?_⟩
  rw [State.drawn_isOn hpx hpy, hoff, hcover]
  rfl

end DrawTwice

/-- Settles O49: both draws turn over the same pixels. -/
theorem drawTwiceRestoresScreen : Obligations.DrawTwiceRestoresScreen := by
  unfold Obligations.DrawTwiceRestoresScreen
  intro s t u x y n _ hx hy h ht h'
  obtain ⟨hfit, rfl⟩ := exec_drw_completed h ht
  have hdraw : exec (.drw x y n) (s.drawn x y n) = .next ((s.drawn x y n).drawn x y n) := exec_drw_draws hfit
  cases hdraw.symm.trans h'
  refine ⟨drawn_drawn_pix hx hy, fun ⟨px, py, hpx, hpy, hcover⟩ hflag => ?_⟩
  rw [State.drawn_getV_flag] at hflag ⊢
  have hmiss : (spriteRaster s x y n).hit = false := by
    by_contra hhit
    rw [(boolByte_eq_one_iff _).2 (Bool.eq_true_of_not_eq_false hhit)] at hflag
    cases hflag
  exact (boolByte_eq_one_iff _).2 (drawn_drawn_hit hx hy hpx hpy hcover hmiss)

/-! ### The launch -/

/-- Settles O55: the Load of O25 on the state Init left, whose other bytes are those of the Initializer. -/
theorem bootIsInitThenLoad : Obligations.BootIsInitThenLoad := by
  unfold Obligations.BootIsInitThenLoad
  refine fun font s rom => ⟨hostLoad_refuses _, fun hfit => ⟨_, hostLoad_copies _ hfit, fun j hj => ?rom,
    fun k hk => ?font, fun a ha => ?rest, rfl, frame_setMem _ _⟩⟩
  case rom =>
    rw [State.setMem_mem, hostInit_mem, Memory.byteAt_putBytes_getElem (State.initial_mem_wf font) (by omega) hj,
      List.getElem?_eq_getElem hj]
  case font =>
    rw [State.setMem_mem, Memory.byteAt_putBytes_outside rom _ _ (by omega)]
    exact State.initial_byteAt_font font k hk
  case rest =>
    rw [State.setMem_mem, Memory.byteAt_putBytes_outside rom _ _ (by omega), hostInit_mem]
    obtain hlow | hhigh | hend := ha
    · exact State.initial_byteAt_below_font font hlow
    · exact State.initial_byteAt_above_font font hhigh.1
    · exact State.initial_byteAt_above_font font (by omega)

end Sys2Proof.Machine
